-- ==== Sys2Proof/Word.lean ====
section
/-! DEFINITION. The words and small types of the block (spec/00_scope.md R9, R12): names only, no behaviour.
A caller's id is its channel number, a Nat (R10, R191). -/

namespace Sys2Proof

/-- A Digit: DIGIT_WIDTH = 4 bits, 0..15 (R9, R16). -/
abbrev Digit := BitVec 4

/-- A value a caller passes to SET_DIGIT or drives on the encoder port: VALUE_WIDTH = 8 bits, unsigned (R9, D3). -/
abbrev Value := BitVec 8

/-- One byte of a front end's payload (R170). -/
abbrev Byte := BitVec 8

/-- A SegmentPattern: bit 0 is segment A, bit 6 is segment G, a set bit is a lit segment (R12, R16). -/
abbrev Pattern := BitVec 7

/-- A physical pin identifier: PIN_ID_WIDTH = 8 bits, compared for equality only (R9, D6). -/
abbrev PinId := BitVec 8

/-- A pin level, 0 or 1 (R9). -/
abbrev Level := Bool

/-- A slot: NUM_SEG = 7 of them, 0 is segment A and 6 is segment G (R52, R53). -/
abbrev Slot := Fin 7

/-- One entry per slot. -/
abbrev PerSlot (α : Type) := Vector α 7

/-- A request word REQ[9:0] (R70). -/
abbrev ReqWord := BitVec 10

/-- A response word RSP[10:0] (R72). -/
abbrev RspWord := BitVec 11

end Sys2Proof
end

