-- ==== Sys2Proof/Syntax.lean ====
section
/-! DEFINITION. The operations of the block (the opcode table), the lines and directives of test programs (R81 to R83),
and the acts of the agents outside the block (R10, R11). -/

namespace Sys2Proof

/-- The operations, one per row of spec/opcode_table.json. The value field of GET_DIGIT, INIT and SHUTDOWN is kept so
that no bit of a word is lost; the operations ignore it (R79). -/
inductive Instr where
  /-- GET_DIGIT, op 00 (R150). -/
  | getDigit (value : Value)
  /-- SET_DIGIT, op 01 (R140). -/
  | setDigit (value : Value)
  /-- INIT, op 10 (R110). -/
  | init (value : Value)
  /-- SHUTDOWN, op 11 (R120). -/
  | shutdown (value : Value)
  /-- ENCODE, on the encoder port (R101). -/
  | encode (encIn : Value)
  deriving DecidableEq, Repr, Inhabited

/-- The answer of the GPIO environment to a claim or a write (R14). -/
inductive GpioAnswer where
  | ok
  | fail
  deriving DecidableEq, Repr, Inhabited

/-- The phases in which a pin is written, as directives name them (R82). -/
inductive WritePhase where
  | clear
  | setOn
  | off
  deriving DecidableEq, Repr, Inhabited

/-- The two front ends (R172). -/
inductive FrontEnd where
  /-- The device node: it returns the byte. -/
  | deviceNode
  /-- The control attribute: it returns the byte and a newline. -/
  | controlAttr
  deriving DecidableEq, Repr, Inhabited

/-- What one line of a program asks for (R81), the pseudo-instructions of R83 included. Operands are numbers as written;
WellFormed says which fit. -/
inductive Op where
  | get
  | set (v : Nat)
  | init
  | shutdown
  | encode (v : Nat)
  | writeAscii (b : Nat)
  | readAscii (via : FrontEnd)
  deriving DecidableEq, Repr, Inhabited

/-- A line of a program as written: an operation and the caller that issues it, c0 when none is named (R81). -/
structure Line where
  op     : Op
  caller : Nat := 0
  deriving DecidableEq, Repr, Inhabited

/-- One item of a program as written: a line (R81) or a directive (R82). -/
inductive SourceItem where
  | line (l : Line)
  /-- `.claim k FAIL`. -/
  | claim (k : Nat)
  /-- `.write op# phase k FAIL`. -/
  | write (opNo : Nat) (phase : WritePhase) (k : Nat)
  /-- `.draw b`. -/
  | draw (b : Nat)
  deriving DecidableEq, Repr, Inhabited

/-- A directive in force (R82). -/
inductive Directive where
  /-- The next claim of slot k fails. -/
  | claimFail (k : Slot)
  /-- The write of slot k in that phase of operation number opNo fails. -/
  | writeFail (opNo : Nat) (phase : WritePhase) (k : Slot)
  /-- The next drawn bit is b. -/
  | draw (b : Level)
  deriving DecidableEq, Repr, Inhabited

/-- What an assembled line does when its caller issues it. -/
inductive Act where
  /-- A request word on the caller's channel (R70). -/
  | request (w : ReqWord)
  /-- A value on the encoder port (R76). -/
  | encode (x : Value)
  /-- A front-end write of a payload with first byte b (R171). -/
  | writeAscii (b : Byte)
  /-- A front-end read (R172). -/
  | readAscii (via : FrontEnd)
  deriving DecidableEq, Repr, Inhabited

/-- An assembled line: its number (R82 counts operations from 1), its caller and what it does. -/
structure Task where
  no     : Nat
  caller : Nat
  act    : Act
  deriving DecidableEq, Repr, Inhabited

/-- An assembled item of a program. -/
inductive Item where
  | task (t : Task)
  | directive (d : Directive)
  deriving DecidableEq, Repr, Inhabited

/-- One act of an agent: what a step of the model may be (R8, R10). -/
inductive Event where
  /-- No agent acts. -/
  | idle
  /-- Caller c issues a request word on its channel (R11, R29). -/
  | request (c : Nat) (w : ReqWord)
  /-- The next micro-step of caller c's request: the arbiter grants it the lock, the sequencer goes on with it, or its
  GET_DIGIT is answered (R64, R150). -/
  | serve (c : Nat)
  /-- A value on the encoder port (R76). -/
  | encode (x : Value)
  /-- The platform drives cfg_pin (R11, R77). -/
  | cfgPins (p : PerSlot PinId)
  /-- Power-on or restart of the hosting module (R200, R202). -/
  | reset
  /-- Caller c writes a payload to a front end: its first byte and the rest, which is ignored (R171). -/
  | writeAscii (c : Nat) (b : Byte) (rest : List Byte)
  /-- Caller c reads from a front end (R172). -/
  | readAscii (c : Nat) (via : FrontEnd)
  /-- Caller c's front end takes the response and gives its result (R171, R172). -/
  | collect (c : Nat)
  /-- Caller c issues its next program line (R81). -/
  | line (c : Nat)
  deriving DecidableEq, Repr, Inhabited

end Sys2Proof
end

