-- ==== Sys2Proof/Config.lean ====
section
/-! DEFINITION. What an implementation fixes (the OPEN parameters of R9) and the free values, as constants without a
body: nothing can be proved about them. -/

namespace Sys2Proof

/-- The OPEN parameters of R9. Every rule that depends on one reads it from State.params, so a statement about every
state is a statement about every choice of them (notes/assumptions/1.md). -/
structure Params where
  /-- ACTIVE_LEVEL: the level that lights a segment (D5). -/
  activeLevel  : Level
  /-- DEFAULT_DIGIT: the digit INIT's commit writes (D4). -/
  defaultDigit : Digit
  /-- HEX_ASCII: whether the front ends accept 'A'..'F' (D28). -/
  hexAscii     : Bool
  /-- NUM_CALLERS - 1, so that there is at least one caller (D19). -/
  extraCallers : Nat
  deriving DecidableEq, Repr, Inhabited

/-- INACTIVE_LEVEL = 1 - ACTIVE_LEVEL (R9). -/
def Params.inactiveLevel (p : Params) : Level := !p.activeLevel

/-- NUM_CALLERS (R9). -/
def Params.numCallers (p : Params) : Nat := p.extraCallers + 1

/-- Is c one of the NUM_CALLERS callers (R10)? Caller 0 is tested first: it exists whatever the parameter is. -/
def Params.hasCaller (p : Params) (c : Nat) : Bool := c == 0 || decide (c < p.numCallers)

/-- The reference configuration of R9, with n callers. -/
def Params.reference (n : Nat := 1) : Params :=
  { activeLevel := true, defaultDigit := 0, hexAscii := false, extraCallers := n - 1 }

/-- The parameters of the machine that State.reset stands for: any. -/
opaque Config.params : Params

/-- What the platform drives on cfg_pin at power-on: anything (R33, notes/assumptions/11.md). -/
opaque Config.cfgPinAtReset : PerSlot PinId

/-- The n-th free choice of which agent acts (R8, R64, R187). -/
opaque Config.freeEvent : Nat → Event

/-- The n-th free answer of the GPIO environment to a claim (R14, R56). -/
opaque Config.freeClaim : Nat → GpioAnswer

/-- The n-th free answer of the GPIO environment to a write (R14, R55). -/
opaque Config.freeWrite : Nat → GpioAnswer

/-- The n-th free `draw_bit()` (R13). -/
opaque Config.freeDraw : Nat → Level

end Sys2Proof
end

