-- ==== Sys2Proof/WellFormed.lean ====
section
/-! DEFINITION. Which terms of the syntax are well formed: operations, and program lines and directives as written. -/

namespace Sys2Proof

/-- No request word is illegal and every encoder input is answered, so every operation is well formed (R78, R79, R101). -/
def Instr.wellFormed : Instr → Bool
  | .getDigit _ => true
  | .setDigit _ => true
  | .init _ => true
  | .shutdown _ => true
  | .encode _ => true

/-- The canonical words drive the ignored value bits to 0: a caller should, and need not (R78, R79). -/
def Instr.canonical : Instr → Bool
  | .getDigit v => v == 0
  | .setDigit _ => true
  | .init v => v == 0
  | .shutdown v => v == 0
  | .encode _ => true

/-- A written operand is 0..255 (R81); a payload byte too (R83). -/
def Op.wellFormed : Op → Bool
  | .get => true
  | .set v => decide (v ≤ 255)
  | .init => true
  | .shutdown => true
  | .encode v => decide (v ≤ 255)
  | .writeAscii b => decide (b ≤ 255)
  | .readAscii _ => true

/-- A line's operand fits and its caller exists (R10, R81). -/
def Line.wellFormed (p : Params) (l : Line) : Bool := l.op.wellFormed && p.hasCaller l.caller

/-- A directive names a slot 0..6 and a bit 0 or 1; an operation number counts from 1 (R82). -/
def SourceItem.wellFormed (p : Params) : SourceItem → Bool
  | .line l => l.wellFormed p
  | .claim k => decide (k ≤ 6)
  | .write n _ k => decide (1 ≤ n) && decide (k ≤ 6)
  | .draw b => decide (b ≤ 1)

end Sys2Proof
end

