-- ==== Sys2Proof/Decode.lean ====
section
/-! DEFINITION. Request words and the encoder port's input, decoded and encoded (spec/30_encoding.md R70, R71, R76,
R78 to R80), and the same through bytes, for a host that numbers an instruction's bits. -/

namespace Sys2Proof

/-- The operation field REQ[9:8] (R70). -/
def opField (w : ReqWord) : BitVec 2 := w.extractLsb' 8 2

/-- The value field REQ[7:0] (R70, R71). -/
def valueField (w : ReqWord) : Value := w.extractLsb' 0 8

/-- Decoding is total and reads only REQ[9:8] to choose the operation (R78). -/
def decodeRequest (w : ReqWord) : Instr :=
  if opField w = 0b00#2 then .getDigit (valueField w)
  else if opField w = 0b01#2 then .setDigit (valueField w)
  else if opField w = 0b10#2 then .init (valueField w)
  else .shutdown (valueField w)

/-- The encoder port has no opcode: it always performs ENCODE (R76). -/
def decodeEncoder (x : Value) : Instr := .encode x

/-- The two ports an operation can arrive on (R11). -/
inductive Port where
  | request
  | encoder
  deriving DecidableEq, Repr, Inhabited

/-- Why bytes are no word of a port. -/
inductive DecodeError where
  /-- Not one byte on the encoder port, or not two on the request channel. -/
  | wrongLength
  /-- A bit above REQ[9] is set: a request has exactly 10 bits (R70, R80). -/
  | notTenBits
  deriving DecidableEq, Repr, Inhabited

/-- The request word in two bytes, the low byte first (notes/assumptions/14.md). -/
def requestOfBytes (lo hi : Byte) : ReqWord := hi.extractLsb' 0 2 ++ lo

/-- Decoding from bytes: total, and what is no word of the port is rejected by name. -/
def decodeBytes : Port → List Byte → Except DecodeError Instr
  | .encoder, [x] => .ok (decodeEncoder x)
  | .encoder, _ => .error .wrongLength
  | .request, [lo, hi] =>
    if hi.extractLsb' 2 6 = 0#6 then .ok (decodeRequest (requestOfBytes lo hi)) else .error .notTenBits
  | .request, _ => .error .wrongLength

/-- An operation as a port's word. -/
inductive PortWord where
  | request (w : ReqWord)
  | encoder (x : Value)
  deriving DecidableEq, Repr, Inhabited

/-- The word of an operation: `op` in the top two bits, `value` below (R70, R78); the encoder's input as it is (R76). -/
def encode : Instr → PortWord
  | .getDigit v => .request (0b00#2 ++ v)
  | .setDigit v => .request (0b01#2 ++ v)
  | .init v => .request (0b10#2 ++ v)
  | .shutdown v => .request (0b11#2 ++ v)
  | .encode x => .encoder x

/-- The operation of a port's word. -/
def decode : PortWord → Instr
  | .request w => decodeRequest w
  | .encoder x => decodeEncoder x

/-- A port's word as the port and its bytes, low byte first. -/
def PortWord.bytes : PortWord → Port × List Byte
  | .request w => (.request, [w.extractLsb' 0 8, (0#6) ++ w.extractLsb' 8 2])
  | .encoder x => (.encoder, [x])

/-- The operation of an instruction whose bits are w, numbered as the opcode table numbers them: a row of at most 8 bits
is the encoder port's (ENCODE, format ENC_PORT8), a longer one the request channel's (format REQ10). -/
def decodeTableWord (nbits w : Nat) : Option Instr :=
  if nbits ≤ 8 then
    if w < 256 then (decodeBytes .encoder [BitVec.ofNat 8 w]).toOption else none
  else
    if w < 65536 then (decodeBytes .request [BitVec.ofNat 8 w, BitVec.ofNat 8 (w / 256)]).toOption else none

end Sys2Proof
end

