-- ==== Sys2Proof/Machine/State.lean ====
section
/-! DEFINITION. The state of the block (spec/10_state.md R20 to R41) and what one deterministic machine must hold beside
it: the ports, the parameters and the environment. Plain data. -/

namespace Sys2Proof.Machine

open Sys2Proof

/-- LIFE (R26). -/
inductive Life where
  | uninit
  | ready
  deriving DecidableEq, Repr, Inhabited

/-- SEQ.kind (R28). -/
inductive SeqKind where
  | init
  | set
  | shutdown
  deriving DecidableEq, Repr, Inhabited

/-- SEQ.phase, with the fields R28 gives to that phase alone: `pat` and `val` for SET, `err` for INIT's unwinding. -/
inductive Phase where
  | claim
  | unwind (err : Slot)
  | commitInit
  | clear (pat : Pattern) (val : Digit)
  | setOn (pat : Pattern) (val : Digit)
  | commitSet (pat : Pattern) (val : Digit)
  | off
  | release
  deriving DecidableEq, Repr, Inhabited

/-- SEQ.k, "the index of the next pin": 0..7 (R28). -/
abbrev PinIndex := Fin 8

/-- The operation in flight: it holds the lock (R27, R28). -/
structure SeqRec where
  caller : Nat
  phase  : Phase
  k      : PinIndex
  deriving DecidableEq, Repr, Inhabited

/-- One value per caller that has one: callers strictly rising, so that equal contents are equal data. -/
abbrev Slots (α : Type) := List (Nat × α)

/-- The encoder's result: a pattern, or InvalidDigit, which carries none (R101, R103). -/
inductive EncResult where
  | ok (seg : Pattern)
  | invalidDigit
  deriving DecidableEq, Repr, Inhabited

/-- The result of a front-end call (R171, R172). -/
inductive FrontResult where
  /-- FRONTEND_REJECT: the byte is no accepted character. -/
  | reject
  /-- FRONTEND_ERROR: GET_DIGIT did not answer OK. -/
  | error
  /-- A write's result: the response of its SET_DIGIT. -/
  | response (w : RspWord)
  /-- A read's bytes. -/
  | bytes (bs : List Byte)
  /-- A read is refused: a digit of 10 or more, and no hex (R172, I13). -/
  | noByte
  deriving DecidableEq, Repr, Inhabited

/-- Where caller c's front-end call stands. -/
inductive FrontState where
  /-- Its SET_DIGIT is issued. -/
  | writing
  /-- Its GET_DIGIT is issued. -/
  | reading (via : FrontEnd)
  /-- It is over. -/
  | done (r : FrontResult)
  deriving DecidableEq, Repr, Inhabited

/-- The world outside the block, so far as it decides what happens next. -/
structure Env where
  /-- The acts that come next, when they are fixed; a free one when the list is empty (R8, R64). -/
  events     : List Event
  /-- Program lines not issued yet (R81). -/
  program    : List Item
  /-- The number of the line each caller issued last (R82). -/
  opNo       : Slots Nat
  /-- R82's "every claim and write that no directive names answers OK" holds. -/
  scripted   : Bool
  /-- The directives in force, oldest first (R82). -/
  directives : List Directive
  /-- cfg_pin[0..6] (R33, R77). -/
  cfgPin     : PerSlot PinId
  /-- How many free values have been taken: the argument of the next one. -/
  drawn      : Nat
  deriving DecidableEq, Repr, Inhabited

/-- The machine. -/
structure State where
  /-- The OPEN parameters (R9); no step writes them. -/
  params  : Params
  /-- S0 DIGIT (R22). -/
  digit   : Option Digit
  /-- S1..S7 PINMAP (R23). -/
  pinmap  : PerSlot (Option PinId)
  /-- S8 OWNED (R24). -/
  owned   : PerSlot Bool
  /-- S9 OUT (R25). -/
  out     : PerSlot (Option Level)
  /-- S10 LIFE (R26). -/
  life    : Life
  /-- S11 SEQ, the lock (R27, R28). -/
  seq     : Option SeqRec
  /-- S12 PENDING (R29). -/
  pending : Slots ReqWord
  /-- SYNC, the spec's ghost bit (R30). -/
  sync    : Bool
  /-- The response channels: the answer to each caller's last request (R11, R72). The model's own field. -/
  rsp     : Slots RspWord
  /-- The encoder port: its last result (R76, R101). The model's own field. -/
  encOut  : Option EncResult
  /-- The `c` of the micro-step rules: the caller being served. The model's own field. -/
  active  : Nat
  /-- The callers' front-end calls (R171, R172). The model's own field. -/
  front   : Slots FrontState
  /-- The environment. The model's own field. -/
  env     : Env
  deriving DecidableEq, Repr, Inhabited

/-- Why the machine stops. Each is a read or an access the spec forbids; no reachable state takes one. -/
inductive Fault where
  /-- A GPIO primitive on slot k while PINMAP[k] = none: "reading none as a number is a fault" (R13). Raised by the GPIO
  primitives. Safe. -/
  | pinmapNone (k : Slot)
  /-- A micro-step that touches the pin of SEQ.k while SEQ.k = 7: the slots are 0..6 (R52, R61). Raised by the pin phases
  of SET_DIGIT, INIT and SHUTDOWN. Safe. -/
  | noSlot
  /-- GpioWrite or GpioRelease on slot k while OWNED[k] = 0: the rules give these primitives only on an owned slot
  (R55, R58). Raised by them. Safe. -/
  | slotNotOwned (k : Slot)
  /-- GET_DIGIT reads DIGIT = none: "must fault, not pick a value" (R201). Raised by GET_DIGIT. Safe. -/
  | digitNone
  /-- A front end receives a reserved status code 5 to 7: "should treat it as a fault of the block" (R79). Raised by a
  front end taking its response. Safe. -/
  | reservedStatus (w : RspWord)
  deriving DecidableEq, Repr

/-- Why an instruction has no meaning. -/
inductive Refusal where
  /-- The instruction has no meaning in the model yet. Raised by exec's arms alone. Safe. -/
  | notModelled (mnemonic : String)
  deriving DecidableEq, Repr

/-- What a step answers. -/
abbrev Result := Host.Outcome State Fault Refusal

/-- The environment at power-on: nothing fixed, so every act and every answer is free (notes/assumptions/13.md). -/
def Env.atReset : Env :=
  { events := [], program := [], opNo := [], scripted := false, directives := [],
    cfgPin := Config.cfgPinAtReset, drawn := 0 }

/-- Every element at its reset value (R40, R200), for given parameters and a given world outside. -/
def State.resetWith (p : Params) (e : Env) : State :=
  { params := p, digit := none, pinmap := Vector.replicate 7 none, owned := Vector.replicate 7 false,
    out := Vector.replicate 7 none, life := .uninit, seq := none, pending := [], sync := false,
    rsp := [], encOut := none, active := 0, front := [], env := e }

/-- The machine right after reset (R200). -/
def State.reset : State := State.resetWith Config.params Env.atReset

end Sys2Proof.Machine
end

