-- ==== Sys2Proof/Machine/Slots.lean ====
section
/-! DEFINITION. Per-caller data in one canonical form: callers strictly rising, one entry per caller that has a value
(R29: `PENDING[c]`, "none" is having no entry). -/

namespace Sys2Proof.Machine

/-- The value of caller c, none if it has none. -/
def Slots.get {α : Type} (c : Nat) : Slots α → Option α
  | [] => none
  | (d, x) :: rest => if d = c then some x else Slots.get c rest

/-- Give caller c the value x. -/
def Slots.set {α : Type} (c : Nat) (x : α) : Slots α → Slots α
  | [] => [(c, x)]
  | (d, y) :: rest =>
    if c < d then (c, x) :: (d, y) :: rest
    else if d = c then (c, x) :: rest
    else (d, y) :: Slots.set c x rest

/-- Take caller c's value away. -/
def Slots.erase {α : Type} (c : Nat) : Slots α → Slots α
  | [] => []
  | (d, y) :: rest => if d = c then Slots.erase c rest else (d, y) :: Slots.erase c rest

/-- The canonical form: callers strictly rising. -/
def Slots.wf {α : Type} : Slots α → Bool
  | [] => true
  | (c, _) :: rest => rest.all (fun e => decide (c < e.1)) && Slots.wf rest

end Sys2Proof.Machine
end

