-- ==== Sys2Proof/Machine/Flags.lean ====
section
/-! DEFINITION. The outcome of an operation. The block has no flags register and no condition codes: an operation's
outcome is the status of its own response (R31), in the response word of R72 to R75. -/

namespace Sys2Proof.Machine

open Sys2Proof

/-- The status codes in use (R73). -/
inductive Status where
  | ok
  | invalidDigit
  | initError
  | hardwareWriteError
  | badState
  deriving DecidableEq, Repr, Inhabited

/-- The code of a status (R73). -/
def Status.code : Status → BitVec 3
  | .ok => 0
  | .invalidDigit => 1
  | .initError => 2
  | .hardwareWriteError => 3
  | .badState => 4

/-- The status of a code; 5, 6 and 7 are reserved (R73, R79). -/
def Status.ofCode (c : BitVec 3) : Option Status :=
  if c = 0 then some .ok
  else if c = 1 then some .invalidDigit
  else if c = 2 then some .initError
  else if c = 3 then some .hardwareWriteError
  else if c = 4 then some .badState
  else none

/-- `info` of a failure at slot k: one bit, then the slot in three (R74). INIT_ERROR has bit 0, a write failure has
ph = 0 in the clear phase and 1 in the set phase. -/
def slotInfo (ph : Bool) (k : Slot) : BitVec 4 := BitVec.ofBool ph ++ BitVec.ofNat 3 k.val

/-- The response word: `status[10:8] info[7:4] digit[3:0]` (R72). -/
def rspWord (st : Status) (info : BitVec 4) (d : Digit) : RspWord := st.code ++ info ++ d

/-- `RSP[10:8]` (R72). -/
def rspStatus (w : RspWord) : BitVec 3 := w.extractLsb' 8 3

/-- `RSP[7:4]` (R72). -/
def rspInfo (w : RspWord) : BitVec 4 := w.extractLsb' 4 4

/-- `RSP[3:0]` (R72, R75). -/
def rspDigit (w : RspWord) : Digit := w.extractLsb' 0 4

end Sys2Proof.Machine
end

