-- ==== Sys2Proof/Machine/Operands.lean ====
section
/-! DEFINITION. Operands and the helper functions of R15: the ROM, the range check, levels, and the order in which slots
are taken. -/

namespace Sys2Proof.Machine

open Sys2Proof

/-- The encoder ROM, indices 0..15 (R50). -/
def romTable : Vector Pattern 16 :=
  #v[0x3F#7, 0x06#7, 0x5B#7, 0x4F#7, 0x66#7, 0x6D#7, 0x7D#7, 0x07#7,
     0x7F#7, 0x67#7, 0x77#7, 0x7C#7, 0x39#7, 0x5E#7, 0x79#7, 0x71#7]

/-- `ROM[d]` (R50, R51): every index is populated (R60). -/
def rom (d : Digit) : Pattern := romTable[d.toNat]'d.isLt

/-- `in_range(v) = (v <= 15)`, unsigned (R15, R71). -/
def inRange (v : Value) : Bool := decide (v.toNat ≤ 15)

/-- `v[3:0]`: the Digit of a value in range (R71). -/
def lowDigit (v : Value) : Digit := v.extractLsb' 0 4

/-- `P[i]`: is segment i lit in the pattern (R12, R53)? -/
def segBit (p : Pattern) (i : Slot) : Bool := p.getLsbD i.val

/-- `lvl(b)` (R15). -/
def lvl (p : Params) (b : Bool) : Level := if b then p.activeLevel else p.inactiveLevel

/-- A slot as an index of SEQ.k (R28). -/
def slotIndex (k : Slot) : PinIndex := k.castSucc

/-- The slot that SEQ.k names; none for 7, which is no slot (R52, R61). -/
def indexSlot (k : PinIndex) : Option Slot := if h : k.val < 7 then some ⟨k.val, h⟩ else none

/-- The slots in ascending order. -/
def allSlots : List Slot := [0, 1, 2, 3, 4, 5, 6]

/-- `popcount(P)` (R15). -/
def popcount (p : Pattern) : Nat := allSlots.countP (segBit p)

/-- The slot after k, none after slot 6. -/
def nextSlot (k : Slot) : Option Slot := if h : k.val < 6 then some ⟨k.val + 1, by omega⟩ else none

/-- The slot before k, none before slot 0. -/
def prevSlot (k : Slot) : Option Slot := if k.val = 0 then none else some ⟨k.val - 1, by omega⟩

/-- `min { j | pat[j] = 1 }` (R142). -/
def firstLit (p : Pattern) : Option Slot := allSlots.find? (segBit p)

/-- `min { j > k | pat[j] = 1 }` (R143). -/
def nextLit (p : Pattern) (k : Slot) : Option Slot := allSlots.find? (fun j => decide (k.val < j.val) && segBit p j)

/-- All seven of `some cfg_pin[i]` (R77, R112). -/
def samplePins (p : PerSlot PinId) : PerSlot (Option PinId) :=
  #v[some p[0], some p[1], some p[2], some p[3], some p[4], some p[5], some p[6]]

/-- ENCODE's function (R101): a value above 15 is rejected before any ROM read (R60). -/
def encodeValue (x : Value) : EncResult := if inRange x then .ok (rom (lowDigit x)) else .invalidDigit

/-- `enc_seg[6:0]`: 0000000 when the input is invalid, and then not to be used (R101, R103). -/
def EncResult.seg : EncResult → Pattern
  | .ok p => p
  | .invalidDigit => 0

/-- `enc_invalid` (R101). -/
def EncResult.invalid : EncResult → Bool
  | .ok _ => false
  | .invalidDigit => true

end Sys2Proof.Machine
end

