-- ==== Sys2Proof/Machine/Ops.lean ====
section
/-! DEFINITION. The operations the meanings share: the environment's answers, the GPIO primitives (R14, R54 to R58), the
response (R13), the failure of an operation (the block's only form of exception, R185), and the lock (R27, R64). -/

namespace Sys2Proof.Machine

open Sys2Proof

/-- SEQ.kind is fixed by the phase (R28). -/
def Phase.kind : Phase → SeqKind
  | .claim => .init
  | .unwind _ => .init
  | .commitInit => .init
  | .clear _ _ => .set
  | .setOn _ _ => .set
  | .commitSet _ _ => .set
  | .off => .shutdown
  | .release => .shutdown

/-- SEQ.kind (R28). -/
def SeqRec.kind (r : SeqRec) : SeqKind := r.phase.kind

/-- The environment with a directive used up; nothing changes when it is not in force (R82, notes/assumptions/18.md). -/
def Env.spend (e : Env) (d : Directive) : Env := { e with directives := e.directives.erase d }

/-- An answer no directive names: OK in a test program (R82), otherwise a free draw (R14). -/
def Env.unnamed (e : Env) (free : Nat → GpioAnswer) : GpioAnswer × Env :=
  if e.scripted then (.ok, e) else (free e.drawn, { e with drawn := e.drawn + 1 })

/-- The environment's answer to a claim of slot k (R14, R56, R82). -/
def Env.takeClaim (e : Env) (k : Slot) : GpioAnswer × Env :=
  if e.directives.contains (.claimFail k) then
    (.fail, e.spend (.claimFail k))
  else e.unnamed Config.freeClaim

/-- The environment's answer to the write of slot k in phase ph of caller c's operation (R14, R55, R82). -/
def Env.takeWrite (e : Env) (c : Nat) (ph : WritePhase) (k : Slot) : GpioAnswer × Env :=
  match Slots.get c e.opNo with
  | some n =>
    if e.directives.contains (.writeFail n ph k) then
      (.fail, e.spend (.writeFail n ph k))
    else e.unnamed Config.freeWrite
  | none => e.unnamed Config.freeWrite

/-- The oldest bit a `.draw` directive fixes. -/
def firstDraw : List Directive → Option Level
  | [] => none
  | .draw b :: _ => some b
  | .claimFail _ :: rest => firstDraw rest
  | .writeFail _ _ _ :: rest => firstDraw rest

/-- `draw_bit()`: a free bit, unless a directive fixes it (R13, R82). -/
def Env.takeDraw (e : Env) : Level × Env :=
  match firstDraw e.directives with
  | some b => (b, e.spend (.draw b))
  | none => (Config.freeDraw e.drawn, { e with drawn := e.drawn + 1 })

/-- The level that darkens a segment (R9). -/
def State.inactive (s : State) : Level := s.params.inactiveLevel

/-- The level that lights a segment (R9). -/
def State.activeLvl (s : State) : Level := s.params.activeLevel

/-- `SEQ <- q`. -/
def State.withSeq (s : State) (q : Option SeqRec) : State := { s with seq := q }

/-- The environment after it has answered. -/
def State.withEnv (s : State) (e : Env) : State := { s with env := e }

/-- `OWNED[k] <- o; OUT[k] <- l`: the one place where a slot is written. -/
def State.withPin (s : State) (k : Slot) (o : Bool) (l : Option Level) : State :=
  { s with owned := s.owned.set k o, out := s.out.set k l }

/-- `respond(c, status, info, digit)`: caller c's request is completed with that response (R13, R29). -/
def State.respond (s : State) (c : Nat) (st : Status) (info : BitVec 4) (d : Digit) : State :=
  { s with pending := Slots.erase c s.pending, rsp := Slots.set c (rspWord st info d) s.rsp }

/-- `fail <Status>(info)`: an operation fails. There is no trap: nothing is saved, no mode changes, the response is given
in the micro-step that detects the failure (R13, R185). -/
def State.failWith (s : State) (c : Nat) (st : Status) (info : BitVec 4) : State := s.respond c st info 0

/-- `GpioWrite(PINMAP[k], l)` in phase ph of caller c's operation (R55). A failed write leaves a drawn level, and
SYNC = 0 (R30, notes/assumptions/16.md). -/
def gpioWrite (c : Nat) (ph : WritePhase) (k : Slot) (l : Level) (s : State) : Except Fault (GpioAnswer × State) :=
  match s.pinmap[k] with
  | none => .error (.pinmapNone k)
  | some _ =>
    if s.owned[k] then
      match s.env.takeWrite c ph k with
      | (.ok, e) => .ok (.ok, (s.withEnv e).withPin k true (some l))
      | (.fail, e) => .ok (.fail, { (s.withEnv e.takeDraw.2).withPin k true (some e.takeDraw.1) with sync := false })
    else .error (.slotNotOwned k)

/-- Is pin p already owned through a slot other than k (R56)? -/
def pinTaken (s : State) (k : Slot) (p : PinId) : Bool :=
  allSlots.any fun j => j != k && s.owned[j] && s.pinmap[j] == some p

/-- `GpioClaimOutput(PINMAP[k], l)` (R56): forced to fail on a pin this block owns already. That claim is the next of slot k
too, so it uses up a directive that says the next one fails (R82). -/
def gpioClaim (k : Slot) (l : Level) (s : State) : Except Fault (GpioAnswer × State) :=
  match s.pinmap[k] with
  | none => .error (.pinmapNone k)
  | some p =>
    if pinTaken s k p then .ok (.fail, s.withEnv (s.env.spend (.claimFail k)))
    else
      match s.env.takeClaim k with
      | (.ok, e) => .ok (.ok, (s.withEnv e).withPin k true (some l))
      | (.fail, e) => .ok (.fail, s.withEnv e)

/-- `GpioRelease(PINMAP[k])` (R58): it cannot fail. -/
def gpioRelease (k : Slot) (s : State) : Except Fault State :=
  match s.pinmap[k] with
  | none => .error (.pinmapNone k)
  | some _ => if s.owned[k] then .ok (s.withPin k false none) else .error (.slotNotOwned k)

/-- A pin phase's micro-step, at the slot SEQ.k names. -/
def atSlot (r : SeqRec) (f : Slot → Result) : Result :=
  match indexSlot r.k with
  | some k => f k
  | none => .fault .noSlot

/-- A micro-step goes on after a claim or a write with the environment's answer. -/
def afterPin (r : Except Fault (GpioAnswer × State)) (f : GpioAnswer → State → Result) : Result :=
  match r with
  | .error e => .fault e
  | .ok (a, s) => f a s

/-- A micro-step goes on after a release. -/
def afterRelease (r : Except Fault State) (f : State → State) : Result :=
  match r with
  | .error e => .fault e
  | .ok s => .next (f s)

/-- The lock (R27, R64). Free: the acquisition micro-step. Held by the caller being served: the sequencer's next
micro-step. Held by another caller: the request waits, and nothing changes. -/
def withLock (s : State) (acquire : Result) (go : SeqRec → Result) : Result :=
  match s.seq with
  | none => acquire
  | some r => if r.caller = s.active then go r else .next s

end Sys2Proof.Machine
end

