-- ==== Sys2Proof/Machine/DigitOps.lean ====
section
/-! DEFINITION. SET_DIGIT and GET_DIGIT (spec/42_digit.md): one definition per kind of micro-step. -/

namespace Sys2Proof.Machine

open Sys2Proof

/-- SET_DIGIT acquisition (R141): the lifecycle is checked first, then the range (R186). -/
def setAcquire (v : Value) (s : State) : Result :=
  match s.life with
  | .uninit => .next (s.failWith s.active .badState 0)
  | .ready =>
    if inRange v then
      .next { s with sync := false,
                     seq := some { caller := s.active, phase := .clear (rom (lowDigit v)) (lowDigit v), k := 0 } }
    else .next (s.failWith s.active .invalidDigit 0)

/-- SET_DIGIT write failure at slot k (R144): the remaining writes are not issued, DIGIT is unchanged. -/
def setWriteFailed (ph : Bool) (r : SeqRec) (k : Slot) (s : State) : State :=
  (s.withSeq none).failWith r.caller .hardwareWriteError (slotInfo ph k)

/-- SET_DIGIT clear write of slot k (R142): all seven slots, ascending, whatever their level (R145). -/
def setClear (r : SeqRec) (k : Slot) (pat : Pattern) (val : Digit) (s : State) : Result :=
  afterPin (gpioWrite r.caller .clear k s.inactive s) fun a t =>
    match a with
    | .fail => .next (setWriteFailed false r k t)
    | .ok =>
      match nextSlot k with
      | some k' => .next (t.withSeq (some { r with k := slotIndex k' }))
      | none =>
        match firstLit pat with
        | none => .next (t.withSeq (some { r with phase := .commitSet pat val }))
        | some k' => .next (t.withSeq (some { r with phase := .setOn pat val, k := slotIndex k' }))

/-- SET_DIGIT set write of slot k (R143): only the slots whose pattern bit is 1, ascending. -/
def setSetOn (r : SeqRec) (k : Slot) (pat : Pattern) (val : Digit) (s : State) : Result :=
  afterPin (gpioWrite r.caller .setOn k s.activeLvl s) fun a t =>
    match a with
    | .fail => .next (setWriteFailed true r k t)
    | .ok =>
      match nextLit pat k with
      | some k' => .next (t.withSeq (some { r with k := slotIndex k' }))
      | none => .next (t.withSeq (some { r with phase := .commitSet pat val }))

/-- SET_DIGIT commit (R146). -/
def setCommit (r : SeqRec) (val : Digit) (s : State) : Result :=
  .next ({ s with digit := some val, sync := true, seq := none }.respond r.caller .ok 0 0)

/-- SET_DIGIT's micro-steps, by phase (R140). An operation of another kind holds the lock: SET_DIGIT waits (R64). -/
def setGo (s : State) (r : SeqRec) : Result :=
  match r.phase with
  | .clear pat val => atSlot r fun k => setClear r k pat val s
  | .setOn pat val => atSlot r fun k => setSetOn r k pat val s
  | .commitSet _ val => setCommit r val s
  | .claim => .next s
  | .unwind _ => .next s
  | .commitInit => .next s
  | .off => .next s
  | .release => .next s

/-- SET_DIGIT: the next micro-step for the active caller (R140 to R147). -/
def execSetDigit (value : Value) (s : State) : Result := withLock s (setAcquire value s) (setGo s)

/-- GET_DIGIT (R150): one micro-step, whether or not the lock is held. The value field is ignored (R79). Reading
DIGIT = none is a fault (R201). -/
def execGetDigit (_value : Value) (s : State) : Result :=
  match s.life with
  | .uninit => .next (s.failWith s.active .badState 0)
  | .ready =>
    match s.digit with
    | some d => .next (s.respond s.active .ok 0 d)
    | none => .fault .digitNone

end Sys2Proof.Machine
end

