-- ==== Sys2Proof/Machine/Encoder.lean ====
section
/-! DEFINITION. ENCODE (spec/40_encoder.md). -/

namespace Sys2Proof.Machine

open Sys2Proof

/-- ENCODE (R101): the result appears on the encoder port. It takes no lock, touches no pin and changes no state element
(R100). -/
def execEncode (encIn : Value) (s : State) : Result := .next { s with encOut := some (encodeValue encIn) }

end Sys2Proof.Machine
end

