-- ==== Sys2Proof/Machine/Lifecycle.lean ====
section
/-! DEFINITION. INIT and SHUTDOWN (spec/41_lifecycle.md): one definition per kind of micro-step. -/

namespace Sys2Proof.Machine

open Sys2Proof

/-- INIT acquisition (R112): the only writer of PINMAP. -/
def initAcquire (s : State) : Result :=
  match s.life with
  | .ready => .next (s.failWith s.active .badState 0)
  | .uninit =>
    .next { s with pinmap := samplePins s.env.cfgPin, seq := some { caller := s.active, phase := .claim, k := 0 } }

/-- INIT claim failure at slot k (R114), in the micro-step of the failed claim. -/
def initClaimFailed (r : SeqRec) (k : Slot) (s : State) : State :=
  match prevSlot k with
  | none => (s.withSeq none).failWith r.caller .initError (slotInfo false k)
  | some k' => s.withSeq (some { r with phase := .unwind k, k := slotIndex k' })

/-- INIT claim of slot k (R113). -/
def initClaim (r : SeqRec) (k : Slot) (s : State) : Result :=
  afterPin (gpioClaim k s.inactive s) fun a t =>
    match a with
    | .fail => .next (initClaimFailed r k t)
    | .ok =>
      match nextSlot k with
      | some k' => .next (t.withSeq (some { r with k := slotIndex k' }))
      | none => .next (t.withSeq (some { r with phase := .commitInit }))

/-- INIT commit (R115). -/
def initCommit (r : SeqRec) (s : State) : Result :=
  .next ({ s with digit := some s.params.defaultDigit, life := .ready, sync := false, seq := none }.respond
    r.caller .ok 0 0)

/-- INIT unwind of slot k (R116). -/
def initUnwind (r : SeqRec) (k err : Slot) (s : State) : Result :=
  afterRelease (gpioRelease k s) fun t =>
    match prevSlot k with
    | none => (t.withSeq none).failWith r.caller .initError (slotInfo false err)
    | some k' => t.withSeq (some { r with k := slotIndex k' })

/-- INIT's micro-steps, by phase (R110). An operation of another kind holds the lock: INIT waits (R64). -/
def initGo (s : State) (r : SeqRec) : Result :=
  match r.phase with
  | .claim => atSlot r fun k => initClaim r k s
  | .unwind err => atSlot r fun k => initUnwind r k err s
  | .commitInit => initCommit r s
  | .clear _ _ => .next s
  | .setOn _ _ => .next s
  | .commitSet _ _ => .next s
  | .off => .next s
  | .release => .next s

/-- INIT: the next micro-step for the active caller (R110 to R117). The value field is ignored (R79). -/
def execInit (_value : Value) (s : State) : Result := withLock s (initAcquire s) (initGo s)

/-- SHUTDOWN acquisition (R121): a no-op on an UNINIT controller, without the lock. -/
def shutdownAcquire (s : State) : Result :=
  match s.life with
  | .uninit => .next (s.respond s.active .ok 0 0)
  | .ready =>
    .next { s with life := .uninit, digit := none, sync := false,
                   seq := some { caller := s.active, phase := .off, k := 0 } }

/-- SHUTDOWN inactive write of slot k (R122): the answer is not reported. -/
def shutdownOff (r : SeqRec) (k : Slot) (s : State) : Result :=
  afterPin (gpioWrite r.caller .off k s.inactive s) fun _ t =>
    match nextSlot k with
    | some k' => .next (t.withSeq (some { r with k := slotIndex k' }))
    | none => .next (t.withSeq (some { r with phase := .release, k := 0 }))

/-- SHUTDOWN release of slot k (R123). -/
def shutdownRelease (r : SeqRec) (k : Slot) (s : State) : Result :=
  afterRelease (gpioRelease k s) fun t =>
    match nextSlot k with
    | some k' => t.withSeq (some { r with k := slotIndex k' })
    | none => (t.withSeq none).respond r.caller .ok 0 0

/-- SHUTDOWN's micro-steps, by phase (R120). An operation of another kind holds the lock: SHUTDOWN waits (R64). -/
def shutdownGo (s : State) (r : SeqRec) : Result :=
  match r.phase with
  | .off => atSlot r fun k => shutdownOff r k s
  | .release => atSlot r fun k => shutdownRelease r k s
  | .claim => .next s
  | .unwind _ => .next s
  | .commitInit => .next s
  | .clear _ _ => .next s
  | .setOn _ _ => .next s
  | .commitSet _ _ => .next s

/-- SHUTDOWN: the next micro-step for the active caller (R120 to R124). The value field is ignored (R79). -/
def execShutdown (_value : Value) (s : State) : Result := withLock s (shutdownAcquire s) (shutdownGo s)

end Sys2Proof.Machine
end

