-- ==== Sys2Proof/Machine/Dispatch.lean ====
section
/-! DEFINITION. The meaning of each operation: one arm per row of the opcode table. -/

namespace Sys2Proof.Machine

open Sys2Proof

/-- One micro-step of an operation for the active caller. -/
def exec (i : Instr) (s : State) : Host.Outcome State Fault Refusal :=
  match i with
  | .getDigit value => Sys2Proof.Machine.execGetDigit value s
  | .setDigit value => Sys2Proof.Machine.execSetDigit value s
  | .init value => Sys2Proof.Machine.execInit value s
  | .shutdown value => Sys2Proof.Machine.execShutdown value s
  | .encode encIn => Sys2Proof.Machine.execEncode encIn s

end Sys2Proof.Machine
end

