-- ==== Sys2Proof/Machine/FrontEnd.lean ====
section
/-! DEFINITION. The front ends' contract with the core (spec/43_frontend_contract.md R170 to R174, R83): WRITE_ASCII and
READ_ASCII. Both front ends use the one parameter HEX_ASCII (R173). -/

namespace Sys2Proof.Machine

open Sys2Proof

/-- The Digit of a character (R171): '0'..'9', and 'A'..'F' when hex is accepted; nothing else. -/
def asciiDigit (hex : Bool) (b : Byte) : Option Value :=
  if 0x30 ≤ b.toNat ∧ b.toNat ≤ 0x39 then some (b - 0x30)
  else if hex ∧ 0x41 ≤ b.toNat ∧ b.toNat ≤ 0x46 then some (b - 0x41 + 10)
  else none

/-- The character of a Digit (R172); none for a digit of 10 or more without hex. -/
def digitAscii (hex : Bool) (d : Digit) : Option Byte :=
  if d.toNat < 10 then some (0x30 + d.zeroExtend 8)
  else if hex then some (0x41 + (d.zeroExtend 8 - 10))
  else none

/-- The bytes a read returns (R172): the control attribute adds a newline. -/
def frontBytes (via : FrontEnd) (b : Byte) : List Byte :=
  match via with
  | .deviceNode => [b]
  | .controlAttr => [b, 0x0A]

/-- The result of a read from GET_DIGIT's response (R172). -/
def readResult (hex : Bool) (via : FrontEnd) (st : Status) (w : RspWord) : FrontResult :=
  if st = .ok then
    match digitAscii hex (rspDigit w) with
    | some b => .bytes (frontBytes via b)
    | none => .noByte
  else .error

/-- A front-end call is under way. -/
def FrontState.busy : FrontState → Bool
  | .writing => true
  | .reading _ => true
  | .done _ => false

/-- Caller c exists, has no request outstanding (R29) and is in no front-end call: it may issue. -/
def callerIdle (s : State) (c : Nat) : Bool :=
  s.params.hasCaller c && (Slots.get c s.pending).isNone &&
    match Slots.get c s.front with
    | some f => !f.busy
    | none => true

/-- Caller c's channel takes a request word (R29); its last response is gone from the channel. -/
def State.place (s : State) (c : Nat) (w : ReqWord) : State :=
  { s with pending := Slots.set c w s.pending, rsp := Slots.erase c s.rsp }

/-- Caller c's front-end call stands at f. -/
def State.withFront (s : State) (c : Nat) (f : FrontState) : State := { s with front := Slots.set c f s.front }

/-- SET_DIGIT v as a request word, `0x100 | v` (R78). -/
def setWord (v : Value) : ReqWord := 0b01#2 ++ v

/-- GET_DIGIT's canonical word (R78). -/
def getWord : ReqWord := 0x000#10

/-- WRITE_ASCII b (R171): the SET_DIGIT it issues, or a rejection that issues nothing. -/
def frontWrite (c : Nat) (b : Byte) (s : State) : State :=
  match asciiDigit s.params.hexAscii b with
  | some v => (s.place c (setWord v)).withFront c .writing
  | none => s.withFront c (.done .reject)

/-- READ_ASCII (R172): the GET_DIGIT it issues. -/
def frontRead (c : Nat) (via : FrontEnd) (s : State) : State :=
  (s.place c getWord).withFront c (.reading via)

/-- Caller c's front end takes the response, when there is one (R171, R172). A reserved status is a fault (R79). -/
def frontCollect (c : Nat) (s : State) : Result :=
  match Slots.get c s.front, Slots.get c s.rsp with
  | some .writing, some w =>
    match Status.ofCode (rspStatus w) with
    | some _ => .next (s.withFront c (.done (.response w)))
    | none => .fault (.reservedStatus w)
  | some (.reading via), some w =>
    match Status.ofCode (rspStatus w) with
    | some st => .next (s.withFront c (.done (readResult s.params.hexAscii via st w)))
    | none => .fault (.reservedStatus w)
  | some (.done _), _ => .next s
  | some .writing, none => .next s
  | some (.reading _), none => .next s
  | none, _ => .next s

end Sys2Proof.Machine
end

