-- ==== Sys2Proof/Machine/Inputs.lean ====
section
/-! DEFINITION. Which agent acts next, what instruction that runs, and the acts that run none (R8, R10, R11, R64, R81,
R200, R202). Step.lean only calls these. -/

namespace Sys2Proof.Machine

open Sys2Proof

/-- The write directives among items: each names its operation by number, wherever it stands (R82). -/
def writeDirectives : List Item → List Directive
  | [] => []
  | .directive (.writeFail n ph k) :: rest => .writeFail n ph k :: writeDirectives rest
  | .directive (.claimFail _) :: rest => writeDirectives rest
  | .directive (.draw _) :: rest => writeDirectives rest
  | .task _ :: rest => writeDirectives rest

/-- The items without the write directives. -/
def withoutWrites : List Item → List Item
  | [] => []
  | .directive (.writeFail _ _ _) :: rest => withoutWrites rest
  | .directive (.claimFail k) :: rest => .directive (.claimFail k) :: withoutWrites rest
  | .directive (.draw b) :: rest => .directive (.draw b) :: withoutWrites rest
  | .task t :: rest => .task t :: withoutWrites rest

/-- Caller c's next line of a program, with the directives that come into force when it is issued and what is left: those
that stand before it, and every write directive after it (R81, R82, notes/assumptions/18.md). -/
def takeLine (c : Nat) : List Item → Option (List Directive × Task × List Item)
  | [] => none
  | .directive d :: rest =>
    match takeLine c rest with
    | some (ds, t, left) => some (d :: ds, t, left)
    | none => none
  | .task t :: rest =>
    if t.caller = c then some (writeDirectives rest, t, withoutWrites rest)
    else
      match takeLine c rest with
      | some (ds, t', left) => some (ds, t', .task t :: left)
      | none => none

/-- What an assembled line does, as an act of caller c. -/
def actEvent (c : Nat) : Act → Event
  | .request w => .request c w
  | .encode x => .encode x
  | .writeAscii b => .writeAscii c b []
  | .readAscii via => .readAscii c via

/-- A request that comes from no program line has no operation number. -/
def State.unnumbered (s : State) (c : Nat) : State :=
  { s with env := { s.env with opNo := Slots.erase c s.env.opNo } }

/-- A program line becomes its act, when its caller is free to issue it; any other act of a caller that is free drops the
number of that caller's last line. -/
def resolve (e : Event) (s : State) : Event × State :=
  match e with
  | .line c =>
    if callerIdle s c then
      match takeLine c s.env.program with
      | some (ds, t, left) =>
        (actEvent c t.act,
          { s with env := { s.env with program := left, directives := s.env.directives ++ ds,
                                       opNo := Slots.set c t.no s.env.opNo } })
      | none => (.idle, s)
    else (.idle, s)
  | .request c w => (.request c w, if callerIdle s c then s.unnumbered c else s)
  | .writeAscii c b rest => (.writeAscii c b rest, if callerIdle s c then s.unnumbered c else s)
  | .readAscii c via => (.readAscii c via, if callerIdle s c then s.unnumbered c else s)
  | .idle => (.idle, s)
  | .serve c => (.serve c, s)
  | .encode x => (.encode x, s)
  | .cfgPins p => (.cfgPins p, s)
  | .reset => (.reset, s)
  | .collect c => (.collect c, s)

/-- The next act, taken: the head of the fixed ones, or a free one (R8, R64, R187). -/
def nextEvent (s : State) : Event × State :=
  match s.env.events with
  | e :: rest => resolve e { s with env := { s.env with events := rest } }
  | [] => resolve (Config.freeEvent s.env.drawn) { s with env := { s.env with drawn := s.env.drawn + 1 } }

/-- The instruction an act runs, and the state it runs in: the request word of the caller that is served, decoded, or
ENCODE (R76, R78). None when the act runs none. -/
def fetch (e : Event) (s : State) : Option (Instr × State) :=
  match e with
  | .serve c =>
    match Slots.get c s.pending with
    | some w => some (decodeRequest w, { s with active := c })
    | none => none
  | .encode x => some (decodeEncoder x, s)
  | .idle => none
  | .request _ _ => none
  | .cfgPins _ => none
  | .reset => none
  | .writeAscii _ _ _ => none
  | .readAscii _ _ => none
  | .collect _ => none
  | .line _ => none

/-- An act that runs no instruction. A caller that is not free issues nothing (R29). -/
def perform (e : Event) (s : State) : Result :=
  match e with
  | .request c w => .next (if callerIdle s c then s.place c w else s)
  | .writeAscii c b _ => .next (if callerIdle s c then frontWrite c b s else s)
  | .readAscii c via => .next (if callerIdle s c then frontRead c via s else s)
  | .collect c => frontCollect c s
  | .cfgPins p => .next { s with env := { s.env with cfgPin := p } }
  | .reset => .next (State.resetWith s.params s.env)
  | .idle => .next s
  | .serve _ => .next s
  | .encode _ => .next s
  | .line _ => .next s

end Sys2Proof.Machine
end

