-- ==== Sys2Proof/Machine/Step.lean ====
section
/-! DEFINITION. One step: one agent acts (R8). -/

namespace Sys2Proof.Machine

open Sys2Proof

/-- One step: the next act is taken; if it runs an instruction, that instruction's next micro-step, else the act. -/
def step (s : State) : Host.Outcome State Fault Refusal :=
  match fetch (nextEvent s).1 (nextEvent s).2 with
  | some (i, t) => exec i t
  | none => perform (nextEvent s).1 (nextEvent s).2

/-- s with an instruction where the next step takes it: on the encoder port, or as caller 0's request with the lock free
and caller 0 served next (notes/assumptions/4.md). Bits are numbered as the opcode table numbers them. -/
def State.withFetchWord (s : State) (nbits w : Nat) : State :=
  if nbits ≤ 8 then { s with env := { s.env with events := .encode (BitVec.ofNat 8 w) :: s.env.events } }
  else
    { s.place 0 (BitVec.ofNat 10 w) with
      seq := none, env := { s.env with events := .serve 0 :: s.env.events } }

end Sys2Proof.Machine
end

