-- ==== Sys2Proof/Laws/Decode.lean ====
section
/-! SUPPORT. The fields of a request word, read after they are put together and put together after they are read. -/

namespace Sys2Proof

/-- REQ[9:8] of a word made from an op and a value. -/
@[simp] theorem opField_append (op : BitVec 2) (v : Value) : opField (op ++ v) = op := by
  unfold opField
  ext i hi
  simp only [← BitVec.getLsbD_eq_getElem, BitVec.getLsbD_append, BitVec.getLsbD_extractLsb']
  interval_cases i <;> simp

/-- REQ[7:0] of a word made from an op and a value. -/
@[simp] theorem valueField_append (op : BitVec 2) (v : Value) : valueField (op ++ v) = v := by
  unfold valueField
  ext i hi
  simp only [← BitVec.getLsbD_eq_getElem, BitVec.getLsbD_append, BitVec.getLsbD_extractLsb']
  interval_cases i <;> simp

/-- A word is its op and its value. -/
theorem append_fields (w : ReqWord) : opField w ++ valueField w = w := by
  unfold opField valueField
  ext i hi
  simp only [← BitVec.getLsbD_eq_getElem, BitVec.getLsbD_append, BitVec.getLsbD_extractLsb']
  interval_cases i <;> simp

/-- An op is one of four: decoding is total (R78). -/
theorem op_cases (op : BitVec 2) : op = 0b00#2 ∨ op = 0b01#2 ∨ op = 0b10#2 ∨ op = 0b11#2 := by
  revert op; decide

/-- The two bytes of a request word give it back (notes/assumptions/14.md). -/
theorem requestOfBytes_bytes (w : ReqWord) :
    requestOfBytes (w.extractLsb' 0 8) ((0#6) ++ w.extractLsb' 8 2) = w := by
  unfold requestOfBytes
  ext i hi
  simp only [← BitVec.getLsbD_eq_getElem, BitVec.getLsbD_append, BitVec.getLsbD_extractLsb']
  interval_cases i <;> simp

/-- The high byte of a request word has its six upper bits clear. -/
theorem highBits_bytes (w : ReqWord) : ((0#6) ++ w.extractLsb' 8 2 : BitVec 8).extractLsb' 2 6 = 0#6 := by
  ext i hi
  simp only [← BitVec.getLsbD_eq_getElem, BitVec.getLsbD_append, BitVec.getLsbD_extractLsb']
  interval_cases i <;> simp

end Sys2Proof
end

