-- ==== Sys2Proof/Laws/PerInstr.lean ====
section
/-! SUPPORT. Facts about every operation as syntax, one lemma per constructor. -/

namespace Sys2Proof.Laws.FixedBits

open Sys2Proof

/-- The word of an operation carries the fixed bits of its row of spec/opcode_table.json: word AND mask = match, with
mask 0x300 for the four requests (R78); the encoder port's row has no fixed bits (R76). -/
def Statement : Instr → Prop
  | .getDigit v => ∃ w, encode (.getDigit v) = .request w ∧ w &&& 0x300#10 = 0x000#10
  | .setDigit v => ∃ w, encode (.setDigit v) = .request w ∧ w &&& 0x300#10 = 0x100#10
  | .init v => ∃ w, encode (.init v) = .request w ∧ w &&& 0x300#10 = 0x200#10
  | .shutdown v => ∃ w, encode (.shutdown v) = .request w ∧ w &&& 0x300#10 = 0x300#10
  | .encode x => encode (.encode x) = .encoder x

/-- Masking an op field above a value keeps the op field alone. -/
theorem mask_op (op : BitVec 2) (v : Value) : (op ++ v) &&& 0x300#10 = op ++ 0#8 := by
  ext i hi
  simp only [← BitVec.getLsbD_eq_getElem, BitVec.getLsbD_and, BitVec.getLsbD_append]
  interval_cases i <;> simp

theorem getDigit (v : Value) : Statement (.getDigit v) := ⟨_, rfl, by rw [mask_op]; rfl⟩
theorem setDigit (v : Value) : Statement (.setDigit v) := ⟨_, rfl, by rw [mask_op]; rfl⟩
theorem init (v : Value) : Statement (.init v) := ⟨_, rfl, by rw [mask_op]; rfl⟩
theorem shutdown (v : Value) : Statement (.shutdown v) := ⟨_, rfl, by rw [mask_op]; rfl⟩
theorem encode (x : Value) : Statement (.encode x) := rfl

end Sys2Proof.Laws.FixedBits
end

