-- ==== Sys2Proof/Laws/Slots.lean ====
section
/-! SUPPORT. Per-caller lists: read after write, other callers alone, and the canonical form kept. -/

namespace Sys2Proof.Machine

@[simp] theorem Slots.get_nil {α : Type} (c : Nat) : Slots.get c ([] : Slots α) = none := rfl

/-- A write is read back, and no other caller's value changes. -/
theorem Slots.get_set {α : Type} (c d : Nat) (x : α) (l : Slots α) :
    Slots.get d (Slots.set c x l) = if d = c then some x else Slots.get d l := by
  induction l with
  | nil => simp [Slots.set, Slots.get, eq_comm]
  | cons e rest ih =>
    obtain ⟨k, y⟩ := e
    by_cases h1 : c < k
    · simp [Slots.set, h1, Slots.get, eq_comm]
    · by_cases h2 : k = c
      · subst h2; by_cases h : d = k <;> simp [Slots.set, Slots.get, h, eq_comm]
      · by_cases h3 : k = d
        · subst h3; simp [Slots.set, h1, h2, Slots.get]
        · simp [Slots.set, h1, h2, Slots.get, h3, ih]

@[simp] theorem Slots.get_set_self {α : Type} (c : Nat) (x : α) (l : Slots α) :
    Slots.get c (Slots.set c x l) = some x := by simp [Slots.get_set]

/-- An erased caller has no value, and no other caller's value changes. -/
theorem Slots.get_erase {α : Type} (c d : Nat) (l : Slots α) :
    Slots.get d (Slots.erase c l) = if d = c then none else Slots.get d l := by
  induction l with
  | nil => simp [Slots.erase, Slots.get]
  | cons e rest ih =>
    obtain ⟨k, y⟩ := e
    by_cases h2 : k = c
    · subst h2
      by_cases h : d = k
      · subst h; simpa [Slots.erase] using ih
      · simp [Slots.erase, ih, h, Slots.get, eq_comm]
    · by_cases h3 : k = d
      · subst h3; simp [Slots.erase, h2, Slots.get]
      · simp [Slots.erase, h2, Slots.get, h3, ih]

@[simp] theorem Slots.get_erase_self {α : Type} (c : Nat) (l : Slots α) :
    Slots.get c (Slots.erase c l) = none := by simp [Slots.get_erase]

/-- A lower bound of every caller in the list survives a write of a caller above it. -/
theorem Slots.all_set {α : Type} (b c : Nat) (x : α) (l : Slots α)
    (h : l.all (fun e => decide (b < e.1)) = true) (hc : b < c) :
    (Slots.set c x l).all (fun e => decide (b < e.1)) = true := by
  induction l with
  | nil => simpa [Slots.set] using hc
  | cons e rest ih =>
    obtain ⟨k, y⟩ := e
    simp only [List.all_cons, Bool.and_eq_true, decide_eq_true_eq] at h
    by_cases h1 : c < k
    · simp [Slots.set, h1, hc, h.1]; simpa using h.2
    · by_cases h2 : k = c
      · subst h2; simp [Slots.set, h.1]; simpa using h.2
      · have := ih h.2
        simp [Slots.set, h1, h2, h.1]; simpa using this

/-- A lower bound of every caller in the list survives an erasure. -/
theorem Slots.all_erase {α : Type} (b c : Nat) (l : Slots α)
    (h : l.all (fun e => decide (b < e.1)) = true) :
    (Slots.erase c l).all (fun e => decide (b < e.1)) = true := by
  induction l with
  | nil => simp [Slots.erase]
  | cons e rest ih =>
    obtain ⟨k, y⟩ := e
    simp only [List.all_cons, Bool.and_eq_true, decide_eq_true_eq] at h
    have := ih h.2
    by_cases h2 : k = c
    · simpa [Slots.erase, h2] using this
    · simp [Slots.erase, h2, h.1]; simpa using this

/-- A write keeps the canonical form. -/
theorem Slots.wf_set {α : Type} (c : Nat) (x : α) (l : Slots α) (h : Slots.wf l = true) :
    Slots.wf (Slots.set c x l) = true := by
  induction l with
  | nil => simp [Slots.set, Slots.wf]
  | cons e rest ih =>
    obtain ⟨k, y⟩ := e
    simp only [Slots.wf, Bool.and_eq_true] at h
    by_cases h1 : c < k
    · have hall : rest.all (fun e => decide (c < e.1)) = true := by
        have := h.1
        simp only [List.all_eq_true, decide_eq_true_eq] at this ⊢
        intro e he; exact Nat.lt_trans h1 (this e he)
      simp only [Slots.set, if_pos h1, Slots.wf, List.all_cons, Bool.and_eq_true, decide_eq_true_eq]
      exact ⟨⟨h1, hall⟩, h⟩
    · by_cases h2 : k = c
      · subst h2; simp [Slots.set, Slots.wf, h.2]; simpa using h.1
      · have := Slots.all_set k c x rest h.1 (by omega)
        simp [Slots.set, h1, h2, Slots.wf, ih h.2]; simpa using this

/-- An erasure keeps the canonical form. -/
theorem Slots.wf_erase {α : Type} (c : Nat) (l : Slots α) (h : Slots.wf l = true) :
    Slots.wf (Slots.erase c l) = true := by
  induction l with
  | nil => simp [Slots.erase, Slots.wf]
  | cons e rest ih =>
    obtain ⟨k, y⟩ := e
    simp only [Slots.wf, Bool.and_eq_true] at h
    by_cases h2 : k = c
    · simpa [Slots.erase, h2] using ih h.2
    · have := Slots.all_erase k c rest h.1
      simp [Slots.erase, h2, Slots.wf, ih h.2]; simpa using this

end Sys2Proof.Machine
end

