-- ==== Sys2Proof/Laws/State.lean ====
section
/-! SUPPORT. One lemma per field per update of State, each true by rfl, so that no later proof unfolds an update. -/

namespace Sys2Proof.Machine

open Sys2Proof

@[simp] theorem State.withSeq_params (s : State) (q : Option SeqRec) : (s.withSeq q).params = s.params := rfl
@[simp] theorem State.withSeq_digit (s : State) (q : Option SeqRec) : (s.withSeq q).digit = s.digit := rfl
@[simp] theorem State.withSeq_pinmap (s : State) (q : Option SeqRec) : (s.withSeq q).pinmap = s.pinmap := rfl
@[simp] theorem State.withSeq_owned (s : State) (q : Option SeqRec) : (s.withSeq q).owned = s.owned := rfl
@[simp] theorem State.withSeq_out (s : State) (q : Option SeqRec) : (s.withSeq q).out = s.out := rfl
@[simp] theorem State.withSeq_life (s : State) (q : Option SeqRec) : (s.withSeq q).life = s.life := rfl
@[simp] theorem State.withSeq_seq (s : State) (q : Option SeqRec) : (s.withSeq q).seq = q := rfl
@[simp] theorem State.withSeq_pending (s : State) (q : Option SeqRec) : (s.withSeq q).pending = s.pending := rfl
@[simp] theorem State.withSeq_sync (s : State) (q : Option SeqRec) : (s.withSeq q).sync = s.sync := rfl
@[simp] theorem State.withSeq_rsp (s : State) (q : Option SeqRec) : (s.withSeq q).rsp = s.rsp := rfl
@[simp] theorem State.withSeq_encOut (s : State) (q : Option SeqRec) : (s.withSeq q).encOut = s.encOut := rfl
@[simp] theorem State.withSeq_active (s : State) (q : Option SeqRec) : (s.withSeq q).active = s.active := rfl
@[simp] theorem State.withSeq_front (s : State) (q : Option SeqRec) : (s.withSeq q).front = s.front := rfl
@[simp] theorem State.withSeq_env (s : State) (q : Option SeqRec) : (s.withSeq q).env = s.env := rfl

@[simp] theorem State.withEnv_params (s : State) (e : Env) : (s.withEnv e).params = s.params := rfl
@[simp] theorem State.withEnv_digit (s : State) (e : Env) : (s.withEnv e).digit = s.digit := rfl
@[simp] theorem State.withEnv_pinmap (s : State) (e : Env) : (s.withEnv e).pinmap = s.pinmap := rfl
@[simp] theorem State.withEnv_owned (s : State) (e : Env) : (s.withEnv e).owned = s.owned := rfl
@[simp] theorem State.withEnv_out (s : State) (e : Env) : (s.withEnv e).out = s.out := rfl
@[simp] theorem State.withEnv_life (s : State) (e : Env) : (s.withEnv e).life = s.life := rfl
@[simp] theorem State.withEnv_seq (s : State) (e : Env) : (s.withEnv e).seq = s.seq := rfl
@[simp] theorem State.withEnv_pending (s : State) (e : Env) : (s.withEnv e).pending = s.pending := rfl
@[simp] theorem State.withEnv_sync (s : State) (e : Env) : (s.withEnv e).sync = s.sync := rfl
@[simp] theorem State.withEnv_rsp (s : State) (e : Env) : (s.withEnv e).rsp = s.rsp := rfl
@[simp] theorem State.withEnv_encOut (s : State) (e : Env) : (s.withEnv e).encOut = s.encOut := rfl
@[simp] theorem State.withEnv_active (s : State) (e : Env) : (s.withEnv e).active = s.active := rfl
@[simp] theorem State.withEnv_front (s : State) (e : Env) : (s.withEnv e).front = s.front := rfl
@[simp] theorem State.withEnv_env (s : State) (e : Env) : (s.withEnv e).env = e := rfl

@[simp] theorem State.withPin_params (s : State) (k : Slot) (o : Bool) (l : Option Level) : (s.withPin k o l).params = s.params := rfl
@[simp] theorem State.withPin_digit (s : State) (k : Slot) (o : Bool) (l : Option Level) : (s.withPin k o l).digit = s.digit := rfl
@[simp] theorem State.withPin_pinmap (s : State) (k : Slot) (o : Bool) (l : Option Level) : (s.withPin k o l).pinmap = s.pinmap := rfl
@[simp] theorem State.withPin_owned (s : State) (k : Slot) (o : Bool) (l : Option Level) : (s.withPin k o l).owned = s.owned.set k o := rfl
@[simp] theorem State.withPin_out (s : State) (k : Slot) (o : Bool) (l : Option Level) : (s.withPin k o l).out = s.out.set k l := rfl
@[simp] theorem State.withPin_life (s : State) (k : Slot) (o : Bool) (l : Option Level) : (s.withPin k o l).life = s.life := rfl
@[simp] theorem State.withPin_seq (s : State) (k : Slot) (o : Bool) (l : Option Level) : (s.withPin k o l).seq = s.seq := rfl
@[simp] theorem State.withPin_pending (s : State) (k : Slot) (o : Bool) (l : Option Level) : (s.withPin k o l).pending = s.pending := rfl
@[simp] theorem State.withPin_sync (s : State) (k : Slot) (o : Bool) (l : Option Level) : (s.withPin k o l).sync = s.sync := rfl
@[simp] theorem State.withPin_rsp (s : State) (k : Slot) (o : Bool) (l : Option Level) : (s.withPin k o l).rsp = s.rsp := rfl
@[simp] theorem State.withPin_encOut (s : State) (k : Slot) (o : Bool) (l : Option Level) : (s.withPin k o l).encOut = s.encOut := rfl
@[simp] theorem State.withPin_active (s : State) (k : Slot) (o : Bool) (l : Option Level) : (s.withPin k o l).active = s.active := rfl
@[simp] theorem State.withPin_front (s : State) (k : Slot) (o : Bool) (l : Option Level) : (s.withPin k o l).front = s.front := rfl
@[simp] theorem State.withPin_env (s : State) (k : Slot) (o : Bool) (l : Option Level) : (s.withPin k o l).env = s.env := rfl

@[simp] theorem State.respond_params (s : State) (c : Nat) (st : Status) (info : BitVec 4) (d : Digit) : (s.respond c st info d).params = s.params := rfl
@[simp] theorem State.respond_digit (s : State) (c : Nat) (st : Status) (info : BitVec 4) (d : Digit) : (s.respond c st info d).digit = s.digit := rfl
@[simp] theorem State.respond_pinmap (s : State) (c : Nat) (st : Status) (info : BitVec 4) (d : Digit) : (s.respond c st info d).pinmap = s.pinmap := rfl
@[simp] theorem State.respond_owned (s : State) (c : Nat) (st : Status) (info : BitVec 4) (d : Digit) : (s.respond c st info d).owned = s.owned := rfl
@[simp] theorem State.respond_out (s : State) (c : Nat) (st : Status) (info : BitVec 4) (d : Digit) : (s.respond c st info d).out = s.out := rfl
@[simp] theorem State.respond_life (s : State) (c : Nat) (st : Status) (info : BitVec 4) (d : Digit) : (s.respond c st info d).life = s.life := rfl
@[simp] theorem State.respond_seq (s : State) (c : Nat) (st : Status) (info : BitVec 4) (d : Digit) : (s.respond c st info d).seq = s.seq := rfl
@[simp] theorem State.respond_pending (s : State) (c : Nat) (st : Status) (info : BitVec 4) (d : Digit) : (s.respond c st info d).pending = Slots.erase c s.pending := rfl
@[simp] theorem State.respond_sync (s : State) (c : Nat) (st : Status) (info : BitVec 4) (d : Digit) : (s.respond c st info d).sync = s.sync := rfl
@[simp] theorem State.respond_rsp (s : State) (c : Nat) (st : Status) (info : BitVec 4) (d : Digit) : (s.respond c st info d).rsp = Slots.set c (rspWord st info d) s.rsp := rfl
@[simp] theorem State.respond_encOut (s : State) (c : Nat) (st : Status) (info : BitVec 4) (d : Digit) : (s.respond c st info d).encOut = s.encOut := rfl
@[simp] theorem State.respond_active (s : State) (c : Nat) (st : Status) (info : BitVec 4) (d : Digit) : (s.respond c st info d).active = s.active := rfl
@[simp] theorem State.respond_front (s : State) (c : Nat) (st : Status) (info : BitVec 4) (d : Digit) : (s.respond c st info d).front = s.front := rfl
@[simp] theorem State.respond_env (s : State) (c : Nat) (st : Status) (info : BitVec 4) (d : Digit) : (s.respond c st info d).env = s.env := rfl

@[simp] theorem State.failWith_params (s : State) (c : Nat) (st : Status) (info : BitVec 4) : (s.failWith c st info).params = s.params := rfl
@[simp] theorem State.failWith_digit (s : State) (c : Nat) (st : Status) (info : BitVec 4) : (s.failWith c st info).digit = s.digit := rfl
@[simp] theorem State.failWith_pinmap (s : State) (c : Nat) (st : Status) (info : BitVec 4) : (s.failWith c st info).pinmap = s.pinmap := rfl
@[simp] theorem State.failWith_owned (s : State) (c : Nat) (st : Status) (info : BitVec 4) : (s.failWith c st info).owned = s.owned := rfl
@[simp] theorem State.failWith_out (s : State) (c : Nat) (st : Status) (info : BitVec 4) : (s.failWith c st info).out = s.out := rfl
@[simp] theorem State.failWith_life (s : State) (c : Nat) (st : Status) (info : BitVec 4) : (s.failWith c st info).life = s.life := rfl
@[simp] theorem State.failWith_seq (s : State) (c : Nat) (st : Status) (info : BitVec 4) : (s.failWith c st info).seq = s.seq := rfl
@[simp] theorem State.failWith_pending (s : State) (c : Nat) (st : Status) (info : BitVec 4) : (s.failWith c st info).pending = Slots.erase c s.pending := rfl
@[simp] theorem State.failWith_sync (s : State) (c : Nat) (st : Status) (info : BitVec 4) : (s.failWith c st info).sync = s.sync := rfl
@[simp] theorem State.failWith_rsp (s : State) (c : Nat) (st : Status) (info : BitVec 4) : (s.failWith c st info).rsp = Slots.set c (rspWord st info 0) s.rsp := rfl
@[simp] theorem State.failWith_encOut (s : State) (c : Nat) (st : Status) (info : BitVec 4) : (s.failWith c st info).encOut = s.encOut := rfl
@[simp] theorem State.failWith_active (s : State) (c : Nat) (st : Status) (info : BitVec 4) : (s.failWith c st info).active = s.active := rfl
@[simp] theorem State.failWith_front (s : State) (c : Nat) (st : Status) (info : BitVec 4) : (s.failWith c st info).front = s.front := rfl
@[simp] theorem State.failWith_env (s : State) (c : Nat) (st : Status) (info : BitVec 4) : (s.failWith c st info).env = s.env := rfl

@[simp] theorem State.place_params (s : State) (c : Nat) (w : ReqWord) : (s.place c w).params = s.params := rfl
@[simp] theorem State.place_digit (s : State) (c : Nat) (w : ReqWord) : (s.place c w).digit = s.digit := rfl
@[simp] theorem State.place_pinmap (s : State) (c : Nat) (w : ReqWord) : (s.place c w).pinmap = s.pinmap := rfl
@[simp] theorem State.place_owned (s : State) (c : Nat) (w : ReqWord) : (s.place c w).owned = s.owned := rfl
@[simp] theorem State.place_out (s : State) (c : Nat) (w : ReqWord) : (s.place c w).out = s.out := rfl
@[simp] theorem State.place_life (s : State) (c : Nat) (w : ReqWord) : (s.place c w).life = s.life := rfl
@[simp] theorem State.place_seq (s : State) (c : Nat) (w : ReqWord) : (s.place c w).seq = s.seq := rfl
@[simp] theorem State.place_pending (s : State) (c : Nat) (w : ReqWord) : (s.place c w).pending = Slots.set c w s.pending := rfl
@[simp] theorem State.place_sync (s : State) (c : Nat) (w : ReqWord) : (s.place c w).sync = s.sync := rfl
@[simp] theorem State.place_rsp (s : State) (c : Nat) (w : ReqWord) : (s.place c w).rsp = Slots.erase c s.rsp := rfl
@[simp] theorem State.place_encOut (s : State) (c : Nat) (w : ReqWord) : (s.place c w).encOut = s.encOut := rfl
@[simp] theorem State.place_active (s : State) (c : Nat) (w : ReqWord) : (s.place c w).active = s.active := rfl
@[simp] theorem State.place_front (s : State) (c : Nat) (w : ReqWord) : (s.place c w).front = s.front := rfl
@[simp] theorem State.place_env (s : State) (c : Nat) (w : ReqWord) : (s.place c w).env = s.env := rfl

@[simp] theorem State.withFront_params (s : State) (c : Nat) (f : FrontState) : (s.withFront c f).params = s.params := rfl
@[simp] theorem State.withFront_digit (s : State) (c : Nat) (f : FrontState) : (s.withFront c f).digit = s.digit := rfl
@[simp] theorem State.withFront_pinmap (s : State) (c : Nat) (f : FrontState) : (s.withFront c f).pinmap = s.pinmap := rfl
@[simp] theorem State.withFront_owned (s : State) (c : Nat) (f : FrontState) : (s.withFront c f).owned = s.owned := rfl
@[simp] theorem State.withFront_out (s : State) (c : Nat) (f : FrontState) : (s.withFront c f).out = s.out := rfl
@[simp] theorem State.withFront_life (s : State) (c : Nat) (f : FrontState) : (s.withFront c f).life = s.life := rfl
@[simp] theorem State.withFront_seq (s : State) (c : Nat) (f : FrontState) : (s.withFront c f).seq = s.seq := rfl
@[simp] theorem State.withFront_pending (s : State) (c : Nat) (f : FrontState) : (s.withFront c f).pending = s.pending := rfl
@[simp] theorem State.withFront_sync (s : State) (c : Nat) (f : FrontState) : (s.withFront c f).sync = s.sync := rfl
@[simp] theorem State.withFront_rsp (s : State) (c : Nat) (f : FrontState) : (s.withFront c f).rsp = s.rsp := rfl
@[simp] theorem State.withFront_encOut (s : State) (c : Nat) (f : FrontState) : (s.withFront c f).encOut = s.encOut := rfl
@[simp] theorem State.withFront_active (s : State) (c : Nat) (f : FrontState) : (s.withFront c f).active = s.active := rfl
@[simp] theorem State.withFront_front (s : State) (c : Nat) (f : FrontState) : (s.withFront c f).front = Slots.set c f s.front := rfl
@[simp] theorem State.withFront_env (s : State) (c : Nat) (f : FrontState) : (s.withFront c f).env = s.env := rfl

/-- The levels depend on the parameters alone. -/
@[simp] theorem State.inactive_eq (s : State) : s.inactive = s.params.inactiveLevel := rfl
@[simp] theorem State.activeLvl_eq (s : State) : s.activeLvl = s.params.activeLevel := rfl

@[simp] theorem lvl_true (p : Params) : lvl p true = p.activeLevel := rfl
@[simp] theorem lvl_false (p : Params) : lvl p false = p.inactiveLevel := rfl

end Sys2Proof.Machine
end

