-- ==== Sys2Proof/Laws/Ops.lean ====
section
/-! SUPPORT. One lemma per shared operation that says everything it can do; later proofs cite these and do not unfold. -/

namespace Sys2Proof.Machine

open Sys2Proof

/-- Reading a slot after a write of a slot. -/
theorem slot_get_set {α : Type} (v : PerSlot α) (k i : Slot) (x : α) :
    (v.set k x)[i] = if k = i then x else v[i] := by
  simp [Vector.getElem_set, Fin.ext_iff]

/-- The slots are all of them. -/
theorem mem_allSlots (i : Slot) : i ∈ allSlots := by revert i; decide

/-- What INIT's acquisition samples, slot by slot (R112). -/
@[simp] theorem samplePins_getElem (p : PerSlot PinId) (i : Nat) (h : i < 7) : (samplePins p)[i] = some p[i] := by
  unfold samplePins
  interval_cases i <;> rfl

theorem samplePins_get (p : PerSlot PinId) (i : Slot) : (samplePins p)[i] = some p[i] :=
  samplePins_getElem p i.val i.isLt

/-- An index made from a slot names that slot (R28). -/
@[simp] theorem slotIndex_val (k : Slot) : (slotIndex k).val = k.val := rfl

@[simp] theorem indexSlot_slotIndex (k : Slot) : indexSlot (slotIndex k) = some k := by
  simp [indexSlot, k.isLt]

theorem indexSlot_some {x : PinIndex} {k : Slot} (h : indexSlot x = some k) : x = slotIndex k := by
  unfold indexSlot at h
  split at h
  · cases h; rfl
  · cases h

/-- Below 7 an index names a slot. -/
theorem exists_slotIndex {x : PinIndex} (h : x.val < 7) : ∃ k, x = slotIndex k := ⟨⟨x.val, h⟩, rfl⟩

/-- The next slot is one above, and there is none exactly after slot 6. -/
theorem nextSlot_some {k k' : Slot} (h : nextSlot k = some k') : k'.val = k.val + 1 := by
  unfold nextSlot at h
  split at h
  · cases h; rfl
  · cases h

theorem nextSlot_none {k : Slot} (h : nextSlot k = none) : k.val = 6 := by
  unfold nextSlot at h
  split at h
  · cases h
  · omega

/-- The slot before is one below, and there is none exactly before slot 0. -/
theorem prevSlot_some {k k' : Slot} (h : prevSlot k = some k') : k.val = k'.val + 1 := by
  unfold prevSlot at h
  split at h
  · cases h
  · cases h; simp only []; omega

theorem prevSlot_none {k : Slot} (h : prevSlot k = none) : k.val = 0 := by
  unfold prevSlot at h
  split at h
  · assumption
  · cases h

/-- The first lit slot is lit, and none below it is (R142). -/
theorem firstLit_some {p : Pattern} {k : Slot} (h : firstLit p = some k) :
    segBit p k = true ∧ ∀ i : Slot, i < k → segBit p i = false := by
  revert p k; decide +revert

/-- Every ROM entry lights a segment (R50). -/
theorem firstLit_rom (d : Digit) : firstLit (rom d) ≠ none := by
  revert d; decide

/-- The next lit slot is lit, lies above, and none between is lit (R143). -/
theorem nextLit_some {p : Pattern} {k j : Slot} (h : nextLit p k = some j) :
    segBit p j = true ∧ k < j ∧ ∀ i : Slot, k < i → i < j → segBit p i = false := by
  revert p k j; decide +revert

/-- There is no next lit slot when no slot above is lit (R143). -/
theorem nextLit_none {p : Pattern} {k : Slot} (h : nextLit p k = none) : ∀ i : Slot, k < i → segBit p i = false := by
  revert p k; decide +revert

/-- An answer takes directives or free values, and nothing else of the environment. -/
def Env.answeredTo (e e' : Env) : Prop := e' = { e with directives := e'.directives, drawn := e'.drawn }

theorem Env.answeredTo_refl (e : Env) : e.answeredTo e := rfl

theorem Env.answeredTo_trans {a b c : Env} (h : a.answeredTo b) (h' : b.answeredTo c) : a.answeredTo c := by
  unfold Env.answeredTo at *; rw [h', h]

theorem Env.answeredTo_opNo {e e' : Env} (h : e.answeredTo e') : e'.opNo = e.opNo := by rw [h]
theorem Env.answeredTo_cfgPin {e e' : Env} (h : e.answeredTo e') : e'.cfgPin = e.cfgPin := by rw [h]
theorem Env.answeredTo_events {e e' : Env} (h : e.answeredTo e') : e'.events = e.events := by rw [h]
theorem Env.answeredTo_program {e e' : Env} (h : e.answeredTo e') : e'.program = e.program := by rw [h]
theorem Env.answeredTo_scripted {e e' : Env} (h : e.answeredTo e') : e'.scripted = e.scripted := by rw [h]

theorem Env.unnamed_answered (e : Env) (f : Nat → GpioAnswer) : e.answeredTo (e.unnamed f).2 := by
  unfold Env.unnamed Env.answeredTo; split <;> rfl

theorem Env.spend_answered (e : Env) (d : Directive) : e.answeredTo (e.spend d) := rfl

theorem Env.takeClaim_answered (e : Env) (k : Slot) : e.answeredTo (e.takeClaim k).2 := by
  unfold Env.takeClaim; split
  · rfl
  · exact e.unnamed_answered _

theorem Env.takeWrite_answered (e : Env) (c : Nat) (ph : WritePhase) (k : Slot) :
    e.answeredTo (e.takeWrite c ph k).2 := by
  unfold Env.takeWrite; split
  · split
    · rfl
    · exact e.unnamed_answered _
  · exact e.unnamed_answered _

theorem Env.takeDraw_answered (e : Env) : e.answeredTo e.takeDraw.2 := by
  unfold Env.takeDraw; split <;> rfl

/-- What a write can do (R55): it needs a pin that is owned; it sets the slot's level, to the requested one when it
succeeds; a failed one clears SYNC. -/
theorem gpioWrite_cases {c : Nat} {ph : WritePhase} {k : Slot} {l : Level} {s t : State} {a : GpioAnswer}
    (h : gpioWrite c ph k l s = .ok (a, t)) :
    s.pinmap[k] ≠ none ∧ s.owned[k] = true ∧ ∃ e lv, s.env.answeredTo e ∧
      ((a = .ok ∧ lv = l ∧ t = (s.withEnv e).withPin k true (some lv)) ∨
       (a = .fail ∧ t = { (s.withEnv e).withPin k true (some lv) with sync := false })) := by
  unfold gpioWrite at h
  split at h
  · cases h
  · rename_i p hp
    split at h
    · rename_i ho
      refine ⟨by simp [hp], ho, ?_⟩
      have hw := s.env.takeWrite_answered c ph k
      split at h
      · rename_i e he
        rw [he] at hw; cases h
        exact ⟨e, l, hw, .inl ⟨rfl, rfl, rfl⟩⟩
      · rename_i e he
        rw [he] at hw; cases h
        exact ⟨e.takeDraw.2, e.takeDraw.1, Env.answeredTo_trans hw e.takeDraw_answered, .inr ⟨rfl, rfl⟩⟩
    · cases h

/-- A write of an owned slot that has a pin completes (R57). -/
theorem gpioWrite_completes (c : Nat) (ph : WritePhase) {k : Slot} (l : Level) {s : State}
    (hp : s.pinmap[k] ≠ none) (ho : s.owned[k] = true) : ∃ a t, gpioWrite c ph k l s = .ok (a, t) := by
  unfold gpioWrite
  split
  · contradiction
  · simp only [ho, if_true]
    split
    · exact ⟨_, _, rfl⟩
    · exact ⟨_, _, rfl⟩

/-- What a claim can do (R56): it needs a pin; a successful one owns and drives a slot whose pin no other owned slot
has; a failed one changes nothing. -/
theorem gpioClaim_cases {k : Slot} {l : Level} {s t : State} {a : GpioAnswer} (h : gpioClaim k l s = .ok (a, t)) :
    ∃ p e, s.pinmap[k] = some p ∧ s.env.answeredTo e ∧
      ((a = .ok ∧ pinTaken s k p = false ∧ t = (s.withEnv e).withPin k true (some l)) ∨
       (a = .fail ∧ t = s.withEnv e)) := by
  unfold gpioClaim at h
  split at h
  · cases h
  · rename_i p hp
    have hw := s.env.takeClaim_answered k
    split at h
    · cases h
      exact ⟨p, _, hp, s.env.spend_answered _, .inr ⟨rfl, rfl⟩⟩
    · rename_i ht
      split at h
      · rename_i e he
        rw [he] at hw; cases h
        exact ⟨p, e, hp, hw, .inl ⟨rfl, by simpa using ht, rfl⟩⟩
      · rename_i e he
        rw [he] at hw; cases h
        exact ⟨p, e, hp, hw, .inr ⟨rfl, rfl⟩⟩

/-- A claim of a slot that has a pin completes (R57). -/
theorem gpioClaim_completes {k : Slot} (l : Level) {s : State} (hp : s.pinmap[k] ≠ none) :
    ∃ a t, gpioClaim k l s = .ok (a, t) := by
  unfold gpioClaim
  split
  · contradiction
  · split
    · exact ⟨_, _, rfl⟩
    · split <;> exact ⟨_, _, rfl⟩

/-- No other owned slot has the pin (R56). -/
theorem pinTaken_false {s : State} {k : Slot} {p : PinId} (h : pinTaken s k p = false) (j : Slot) (hj : j ≠ k)
    (ho : s.owned[j] = true) : s.pinmap[j] ≠ some p := by
  unfold pinTaken at h
  rw [List.any_eq_false] at h
  have := h j (mem_allSlots j)
  simp only [Bool.and_eq_true, bne_iff_ne, beq_iff_eq, not_and, ne_eq] at this
  exact fun e => this ⟨hj, ho⟩ e

/-- What a release can do (R58). -/
theorem gpioRelease_cases {k : Slot} {s t : State} (h : gpioRelease k s = .ok t) :
    s.pinmap[k] ≠ none ∧ s.owned[k] = true ∧ t = s.withPin k false none := by
  unfold gpioRelease at h
  split at h
  · cases h
  · rename_i p hp
    split at h
    · rename_i ho
      cases h; exact ⟨by simp [hp], ho, rfl⟩
    · cases h

/-- A release of an owned slot that has a pin completes (R57, R58). -/
theorem gpioRelease_completes {k : Slot} {s : State} (hp : s.pinmap[k] ≠ none) (ho : s.owned[k] = true) :
    gpioRelease k s = .ok (s.withPin k false none) := by
  unfold gpioRelease
  split
  · contradiction
  · simp [ho]

/-- A pin phase's micro-step at an index that names a slot is its step at that slot. -/
theorem atSlot_of {r : SeqRec} {k : Slot} (h : r.k = slotIndex k) (f : Slot → Result) : atSlot r f = f k := by
  simp [atSlot, h]

/-- A pin phase's micro-step goes on only where SEQ.k names a slot. -/
theorem atSlot_next {r : SeqRec} {f : Slot → Result} {t : State} (h : atSlot r f = .next t) :
    ∃ k, r.k = slotIndex k ∧ f k = .next t := by
  unfold atSlot at h
  split at h
  · rename_i k hk; exact ⟨k, indexSlot_some hk, h⟩
  · cases h

/-- A micro-step that answers next after a claim or write did so from the primitive's own state. -/
theorem afterPin_next {r : Except Fault (GpioAnswer × State)} {f : GpioAnswer → State → Result} {t : State}
    (h : afterPin r f = .next t) : ∃ a u, r = .ok (a, u) ∧ f a u = .next t := by
  cases r with
  | error e => cases h
  | ok p => exact ⟨p.1, p.2, rfl, h⟩

theorem afterRelease_next {r : Except Fault State} {f : State → State} {t : State}
    (h : afterRelease r f = .next t) : ∃ u, r = .ok u ∧ t = f u := by
  cases r with
  | error e => cases h
  | ok p => cases h; exact ⟨p, rfl, rfl⟩

/-- The lock, case by case (R27, R64). -/
theorem withLock_next {s t : State} {acquire : Result} {go : SeqRec → Result} (h : withLock s acquire go = .next t) :
    (s.seq = none ∧ acquire = .next t) ∨
    (∃ r, s.seq = some r ∧ r.caller = s.active ∧ go r = .next t) ∨
    (∃ r, s.seq = some r ∧ r.caller ≠ s.active ∧ t = s) := by
  unfold withLock at h
  split at h
  · exact .inl ⟨by assumption, h⟩
  · rename_i r hr
    split at h
    · exact .inr (.inl ⟨r, hr, by assumption, h⟩)
    · cases h; exact .inr (.inr ⟨r, hr, by assumption, rfl⟩)

/-- The three ways the lock stands, forwards. -/
theorem withLock_free {s : State} (h : s.seq = none) (acquire : Result) (go : SeqRec → Result) :
    withLock s acquire go = acquire := by simp [withLock, h]

theorem withLock_mine {s : State} {r : SeqRec} (h : s.seq = some r) (hc : r.caller = s.active) (acquire : Result)
    (go : SeqRec → Result) : withLock s acquire go = go r := by simp [withLock, h, hc]

theorem withLock_waits {s : State} {r : SeqRec} (h : s.seq = some r) (hc : r.caller ≠ s.active) (acquire : Result)
    (go : SeqRec → Result) : withLock s acquire go = .next s := by simp [withLock, h, hc]

end Sys2Proof.Machine
end

