-- ==== Sys2Proof/Machine/Asm.lean ====
section
/-! DEFINITION. The textual syntax of operation sequences (spec/30_encoding.md R81 to R83): from the characters of a line to
a source item, and from source items to the items a program holds. -/

namespace Sys2Proof.Machine

open Sys2Proof

/-- The words of a line: separated by blanks, up to the ';' that starts a comment (R81). -/
def asmWords : List Char → List Char → List (List Char)
  | [], [] => []
  | word, [] => [word]
  | word, c :: rest =>
    if c = ';' then (if word = [] then [] else [word])
    else if c = ' ' ∨ c = '\t' then (if word = [] then asmWords [] rest else word :: asmWords [] rest)
    else asmWords (word ++ [c]) rest

/-- A digit character's value in a base of 10 or 16. -/
def digitValue (base : Nat) (c : Char) : Option Nat :=
  if '0' ≤ c ∧ c ≤ '9' then some (c.toNat - '0'.toNat)
  else if base = 16 ∧ 'A' ≤ c ∧ c ≤ 'F' then some (c.toNat - 'A'.toNat + 10)
  else if base = 16 ∧ 'a' ≤ c ∧ c ≤ 'f' then some (c.toNat - 'a'.toNat + 10)
  else none

/-- The digits of a number, after the ones already read. -/
def numberFrom (base : Nat) : Nat → List Char → Option Nat
  | n, [] => some n
  | n, c :: rest =>
    match digitValue base c with
    | some d => numberFrom base (n * base + d) rest
    | none => none

/-- A number: decimal, or hexadecimal after 0x (R12, R81). -/
def number : List Char → Option Nat
  | [] => none
  | ['0', 'x'] => none
  | '0' :: 'x' :: rest => numberFrom 16 0 rest
  | c :: rest => numberFrom 10 0 (c :: rest)

/-- The caller a word `c<n>:` names (R81). -/
def callerWord : List Char → Option Nat
  | 'c' :: rest =>
    match rest.reverse with
    | ':' :: c :: cs => numberFrom 10 0 (c :: cs).reverse
    | _ => none
  | _ => none

/-- The phase a `.write` directive names (R82). -/
def phaseWord (w : List Char) : Option WritePhase :=
  if w = ['C', 'L', 'E', 'A', 'R'] then some .clear
  else if w = ['S', 'E', 'T', 'O', 'N'] then some .setOn
  else if w = ['O', 'F', 'F'] then some .off
  else none

/-- The operation of a line's words (R81, R83). READ_ASCII reads through the device node (notes/assumptions/23.md). -/
def opWords : List (List Char) → Option Op
  | [m] =>
    if m = ['G', 'E', 'T'] then some .get
    else if m = ['I', 'N', 'I', 'T'] then some .init
    else if m = ['S', 'H', 'U', 'T', 'D', 'O', 'W', 'N'] then some .shutdown
    else if m = ['R', 'E', 'A', 'D', '_', 'A', 'S', 'C', 'I', 'I'] then some (.readAscii .deviceNode)
    else none
  | [m, v] =>
    if m = ['S', 'E', 'T'] then (number v).map .set
    else if m = ['E', 'N', 'C', 'O', 'D', 'E'] then (number v).map .encode
    else if m = ['W', 'R', 'I', 'T', 'E', '_', 'A', 'S', 'C', 'I', 'I'] then (number v).map .writeAscii
    else none
  | _ => none

/-- The directive of a line's words (R82). -/
def directiveWords : List (List Char) → Option SourceItem
  | [m, a] => if m = ['.', 'd', 'r', 'a', 'w'] then (number a).map .draw else none
  | [m, a, f] =>
    if m = ['.', 'c', 'l', 'a', 'i', 'm'] ∧ f = ['F', 'A', 'I', 'L'] then (number a).map .claim else none
  | [m, n, ph, k, f] =>
    if m = ['.', 'w', 'r', 'i', 't', 'e'] ∧ f = ['F', 'A', 'I', 'L'] then
      match number n, phaseWord ph, number k with
      | some n, some ph, some k => some (.write n ph k)
      | _, _, _ => none
    else none
  | _ => none

/-- What a line of text says. -/
inductive AsmLine where
  /-- Nothing: blank, or a comment. -/
  | blank
  | item (i : SourceItem)
  /-- It is no line of the syntax. -/
  | malformed
  deriving DecidableEq, Repr, Inhabited

/-- The operation line of some words, with the caller that issues it: c0 when none is named (R81). -/
def lineWords (c : Nat) (ws : List (List Char)) : AsmLine :=
  match opWords ws with
  | some op => .item (.line { op := op, caller := c })
  | none => .malformed

/-- One line of text (R81, R82). -/
def parseLine (text : List Char) : AsmLine :=
  match asmWords [] text with
  | [] => .blank
  | w :: ws =>
    match callerWord w with
    | some c => lineWords c ws
    | none =>
      match directiveWords (w :: ws) with
      | some d => .item d
      | none => lineWords 0 (w :: ws)

/-- What a word does on its port. -/
def portAct : PortWord → Act
  | .request w => .request w
  | .encoder x => .encode x

/-- What a written operation does: its canonical word on its port (R78, R81), or a pseudo-operation (R83). -/
def opAct : Op → Act
  | .get => portAct (encode (.getDigit 0))
  | .set v => portAct (encode (.setDigit (BitVec.ofNat 8 v)))
  | .init => portAct (encode (.init 0))
  | .shutdown => portAct (encode (.shutdown 0))
  | .encode v => portAct (encode (.encode (BitVec.ofNat 8 v)))
  | .writeAscii b => .writeAscii (BitVec.ofNat 8 b)
  | .readAscii via => .readAscii via

/-- A written slot number, when there is such a slot. -/
def slotOf (k : Nat) : Option Slot := if h : k < 7 then some ⟨k, h⟩ else none

/-- Source items as a program holds them, operations numbered from n on (R82); none when one is not well formed. -/
def assemble (p : Params) : Nat → List SourceItem → Option (List Item)
  | _, [] => some []
  | n, i :: rest =>
    if i.wellFormed p then
      match i with
      | .line l => (assemble p (n + 1) rest).map (.task { no := n, caller := l.caller, act := opAct l.op } :: ·)
      | .claim k =>
        match slotOf k with
        | some k => (assemble p n rest).map (.directive (.claimFail k) :: ·)
        | none => none
      | .write no ph k =>
        match slotOf k with
        | some k => (assemble p n rest).map (.directive (.writeFail no ph k) :: ·)
        | none => none
      | .draw b => (assemble p n rest).map (.directive (.draw (b == 1)) :: ·)
    else none

/-- A program's source items, operations numbered #1, #2, … (R82). -/
def assembleProgram (p : Params) (src : List SourceItem) : Option (List Item) := assemble p 1 src

end Sys2Proof.Machine
end

