-- ==== Sys2Proof/Safety.lean ====
section
/-! DEFINITION. What a sound state of the block is (spec/10_state.md R41 and what its proof needs), and the words in
which statements speak of runs, of lit segments and of an environment that fails nothing. -/

namespace Sys2Proof.Machine

open Sys2Proof

/-- The kind of lock-taking operation a request word asks for; none for GET_DIGIT, which takes no lock (R28, R150). -/
def requestKind (w : ReqWord) : Option SeqKind :=
  match decodeRequest w with
  | .getDigit _ => none
  | .setDigit _ => some .set
  | .init _ => some .init
  | .shutdown _ => some .shutdown
  | .encode _ => none

/-- R41.1: a slot is driven exactly when it is owned. -/
def State.ownedIffDriven (s : State) : Prop := ∀ i : Slot, s.owned[i] = false ↔ s.out[i] = none

/-- R41.2: READY exactly when DIGIT holds a value. -/
def State.readyIffDigit (s : State) : Prop := s.life = .ready ↔ s.digit ≠ none

/-- R41.3: READY with the lock free, or held by a SET_DIGIT, has every slot owned. -/
def State.readyOwnsAll (s : State) : Prop :=
  s.life = .ready → (∀ r, s.seq = some r → r.kind = .set) → ∀ i : Slot, s.owned[i] = true

/-- R41.4: UNINIT with the lock free has no slot owned. -/
def State.idleUninitOwnsNone (s : State) : Prop :=
  s.life = .uninit → s.seq = none → ∀ i : Slot, s.owned[i] = false

/-- R53: pattern p is driven. -/
def State.drives (s : State) (p : Pattern) : Prop := ∀ i : Slot, s.out[i] = some (lvl s.params (segBit p i))

/-- R41.5: when SYNC = 1 the pins show DIGIT. -/
def State.syncShowsDigit (s : State) : Prop :=
  s.sync = true → s.seq = none ∧ s.life = .ready ∧ ∃ d, s.digit = some d ∧ s.drives (rom d)

/-- R41.6: the operation in flight serves an outstanding request. -/
def State.seqServesPending (s : State) : Prop := ∀ r, s.seq = some r → Slots.get r.caller s.pending ≠ none

/-- The six invariants of R41. -/
structure State.R41 (s : State) : Prop where
  ownedIffDriven     : s.ownedIffDriven
  readyIffDigit      : s.readyIffDigit
  readyOwnsAll       : s.readyOwnsAll
  idleUninitOwnsNone : s.idleUninitOwnsNone
  syncShowsDigit     : s.syncShowsDigit
  seqServesPending   : s.seqServesPending

/-- What holds in the midst of an operation, phase by phase (R112 to R123, R141 to R146). -/
def State.phaseSound (s : State) (r : SeqRec) : Prop :=
  match r.phase with
  | .claim =>
    s.life = .uninit ∧
      ∀ i : Slot, s.owned[i] = decide (i.val < r.k.val) ∧ (i.val < r.k.val → s.out[i] = some s.inactive)
  | .unwind err => s.life = .uninit ∧ r.k.val < err.val ∧ ∀ i : Slot, s.owned[i] = decide (i.val ≤ r.k.val)
  | .commitInit => s.life = .uninit ∧ ∀ i : Slot, s.owned[i] = true ∧ s.out[i] = some s.inactive
  | .clear pat val => s.life = .ready ∧ pat = rom val ∧ ∀ i : Slot, i.val < r.k.val → s.out[i] = some s.inactive
  | .setOn pat val =>
    s.life = .ready ∧ pat = rom val ∧ pat.getLsbD r.k.val = true ∧
      ∀ i : Slot, s.out[i] = some (if i.val < r.k.val then lvl s.params (segBit pat i) else s.inactive)
  | .commitSet pat val => s.life = .ready ∧ pat = rom val ∧ s.drives pat
  | .off => s.life = .uninit ∧ ∀ i : Slot, s.owned[i] = true
  | .release => s.life = .uninit ∧ ∀ i : Slot, s.owned[i] = decide (r.k.val ≤ i.val)

/-- A sound state: R41, and what every step needs beside it to keep it. -/
structure State.Inv (s : State) : Prop where
  r41            : s.R41
  /-- The operation in flight is of its request's kind, and its phase's own invariant holds. -/
  seqSound       : ∀ r, s.seq = some r →
    s.phaseSound r ∧ ∃ w, Slots.get r.caller s.pending = some w ∧ requestKind w = some r.kind
  /-- SEQ.k names a slot: no rule writes the 7 of its range (R28). -/
  seqSlot        : ∀ r, s.seq = some r → r.k.val < 7
  /-- An INIT in flight has sampled all seven pins (R112). -/
  initMapped     : ∀ r, s.seq = some r → r.kind = .init → ∀ i : Slot, s.pinmap[i] ≠ none
  /-- An owned slot has a pin (R24). -/
  ownedMapped    : ∀ i : Slot, s.owned[i] = true → s.pinmap[i] ≠ none
  /-- No two owned slots are the same pin (R23, R56). -/
  ownedDistinct  : ∀ i j : Slot, i ≠ j → s.owned[i] = true → s.owned[j] = true → s.pinmap[i] ≠ s.pinmap[j]
  /-- Only callers that exist have a request outstanding (R10, R29). -/
  pendingCallers : ∀ c w, Slots.get c s.pending = some w → s.params.hasCaller c = true
  /-- A request outstanding has no response yet: exactly one response per request (R11, R29). -/
  oneAnswer      : ∀ c, Slots.get c s.pending ≠ none → Slots.get c s.rsp = none
  /-- Status codes 5 to 7 are never produced (R79). -/
  rspLegal       : ∀ c w, Slots.get c s.rsp = some w → Status.ofCode (rspStatus w) ≠ none
  /-- The per-caller lists are in canonical form. -/
  pendingWf      : Slots.wf s.pending = true
  rspWf          : Slots.wf s.rsp = true
  frontWf        : Slots.wf s.front = true
  opNoWf         : Slots.wf s.env.opNo = true

/-- Slot i is lit: driven to ACTIVE_LEVEL (R67). -/
def State.lit (s : State) (i : Slot) : Prop := s.out[i] = some s.params.activeLevel

/-- Every slot is owned and has a pin: what a READY controller has when no lock is held, or a SET_DIGIT holds it. -/
def State.pinsHeld (s : State) : Prop := ∀ i : Slot, s.owned[i] = true ∧ s.pinmap[i] ≠ none

/-- The environment fails nothing: a test program's, with no FAIL directive in force (R82). -/
def Env.failsNothing (e : Env) : Bool :=
  e.scripted && e.directives.all fun d =>
    match d with
    | .draw _ => true
    | .claimFail _ => false
    | .writeFail _ _ _ => false

/-- The next n acts serve caller c: n micro-steps of its operation, no other agent between. -/
def State.servesNext (s : State) (c : Nat) (n : Nat) : Prop :=
  ∃ rest, s.env.events = List.replicate n (.serve c) ++ rest

/-- Caller c's outstanding request decodes to i. -/
def State.requests (s : State) (c : Nat) (i : Instr) : Prop :=
  ∃ w, Slots.get c s.pending = some w ∧ decodeRequest w = i

/-- n steps of the machine. -/
def runSteps (n : Nat) (s : State) : Host.Outcome State Fault Refusal := Host.Core.run Sys2Proof.core n s

/-- The claim of slot k will fail in an INIT on state s whose environment is a test program's: a directive fails it, or
cfg_pin names the same pin at an earlier slot (R56, R82, R117). -/
def State.claimWillFail (s : State) (k : Slot) : Prop :=
  Directive.claimFail k ∈ s.env.directives ∨ ∃ i : Slot, i < k ∧ s.env.cfgPin[i] = s.env.cfgPin[k]

/-- The slot the next micro-step of the operation in flight touches, when the caller being served holds the lock: the
SEQ.k of R113, R116, R122, R123, R142 and R143. None when that micro-step touches no pin, and for SEQ.k = 7. -/
def State.pinTarget (s : State) : Option Slot :=
  match s.seq with
  | none => none
  | some r =>
    if r.caller = s.active then
      match r.phase with
      | .claim => indexSlot r.k
      | .unwind _ => indexSlot r.k
      | .commitInit => none
      | .clear _ _ => indexSlot r.k
      | .setOn _ _ => indexSlot r.k
      | .commitSet _ _ => none
      | .off => indexSlot r.k
      | .release => indexSlot r.k
    else none

/-- No block element of R32 but PENDING, and no response, differs: what an act outside the block leaves alone. -/
def State.sameBlock (s t : State) : Prop :=
  t.digit = s.digit ∧ t.pinmap = s.pinmap ∧ t.owned = s.owned ∧ t.out = s.out ∧ t.life = s.life ∧ t.seq = s.seq ∧
    t.sync = s.sync ∧ t.encOut = s.encOut ∧ t.params = s.params

/-- The world outside is as before, but for the directives and free values an answer has used. -/
def State.sameWorld (s t : State) : Prop :=
  t.params = s.params ∧ t.encOut = s.encOut ∧ t.active = s.active ∧ t.front = s.front ∧
    t.env = { s.env with directives := t.env.directives, drawn := t.env.drawn }

/-- The channels of every caller but c are as before. -/
def State.sameChannelsBut (s t : State) (c : Nat) : Prop :=
  ∀ d, d ≠ c → Slots.get d t.pending = Slots.get d s.pending ∧ Slots.get d t.rsp = Slots.get d s.rsp

/-- Caller c's request is completed with that response word. -/
def State.answered (t : State) (c : Nat) (w : RspWord) : Prop :=
  Slots.get c t.pending = none ∧ Slots.get c t.rsp = some w

/-- The micro-steps an operation that holds the lock still takes at most, its final one included (R65). -/
def SeqRec.stepsLeft (r : SeqRec) : Nat :=
  match r.phase with
  | .claim => 13 - r.k.val
  | .unwind _ => r.k.val + 1
  | .commitInit => 1
  | .clear _ _ => 15 - r.k.val
  | .setOn _ _ => 8 - r.k.val
  | .commitSet _ _ => 1
  | .off => 14 - r.k.val
  | .release => 7 - r.k.val

end Sys2Proof.Machine
end

