-- ==== Sys2Proof/Laws/Step.lean ====
section
/-! SUPPORT. What taking the next act does, and the cases of a step. -/

namespace Sys2Proof.Machine

open Sys2Proof

/-- The write directives among items: all of them, and nothing else (R82). -/
theorem mem_writeDirectives {d : Directive} {items : List Item} :
    d ∈ writeDirectives items ↔ Item.directive d ∈ items ∧ ∃ n ph k, d = .writeFail n ph k := by
  induction items with
  | nil => simp [writeDirectives]
  | cons x rest ih =>
    cases x with
    | task t => simp [writeDirectives, ih]
    | directive d' => cases d' <;> simp [writeDirectives, ih] <;> aesop

/-- The line taken is its caller's and stood in the program (R81). -/
theorem takeLine_some {c : Nat} {items left : List Item} {ds : List Directive} {t : Task}
    (h : takeLine c items = some (ds, t, left)) : t.caller = c ∧ Item.task t ∈ items := by
  induction items generalizing ds left with
  | nil => cases h
  | cons x rest ih =>
    cases x with
    | directive d =>
      simp only [takeLine] at h
      split at h
      · rename_i hr; cases h; exact ⟨(ih hr).1, List.mem_cons_of_mem _ (ih hr).2⟩
      · cases h
    | task u =>
      simp only [takeLine] at h
      split at h
      · rename_i hu; cases h; exact ⟨hu, List.mem_cons_self⟩
      · split at h
        · rename_i hr; cases h; exact ⟨(ih hr).1, List.mem_cons_of_mem _ (ih hr).2⟩
        · cases h

/-- Resolving an act changes the environment alone. -/
theorem resolve_block (e : Event) (s : State) : (resolve e s).2 = s.withEnv (resolve e s).2.env := by
  unfold resolve
  split <;> (repeat' split) <;> rfl

/-- Taking the next act changes the environment alone. -/
theorem nextEvent_block (s : State) : (nextEvent s).2 = s.withEnv (nextEvent s).2.env := by
  unfold nextEvent
  split
  · rw [resolve_block]; rfl
  · rw [resolve_block]; rfl

/-- An act fixed in advance that is no caller's own is taken as it is. -/
theorem nextEvent_serve {s : State} {c : Nat} {rest : List Event} (h : s.env.events = .serve c :: rest) :
    nextEvent s = (.serve c, s.withEnv { s.env with events := rest }) := by
  simp [nextEvent, h, resolve, State.withEnv]

/-- A served request: step is exec of the decoded word, in the state that has taken the act (R8, R78). -/
theorem step_serve {s : State} {c : Nat} {rest : List Event} {w : ReqWord} (h : s.env.events = .serve c :: rest)
    (hw : Slots.get c s.pending = some w) :
    step s = exec (decodeRequest w) { s with active := c, env := { s.env with events := rest } } := by
  simp [step, nextEvent_serve h, fetch, hw, State.withEnv]

/-- The cases of a step: it runs the instruction of the request that is served, or ENCODE, or it is the act itself. -/
theorem step_cases (s : State) :
    (∃ c w, (nextEvent s).1 = .serve c ∧ Slots.get c s.pending = some w ∧
      step s = exec (decodeRequest w) { (nextEvent s).2 with active := c }) ∨
    (∃ x, (nextEvent s).1 = .encode x ∧ step s = exec (.encode x) (nextEvent s).2) ∨
    (fetch (nextEvent s).1 (nextEvent s).2 = none ∧ step s = perform (nextEvent s).1 (nextEvent s).2) := by
  have hb := nextEvent_block s
  generalize hn : nextEvent s = p at hb ⊢
  obtain ⟨e, t⟩ := p
  have hs : step s = match fetch e t with
      | some (i, u) => exec i u
      | none => perform e t := by
    show (match fetch (nextEvent s).1 (nextEvent s).2 with
      | some (i, u) => exec i u
      | none => perform (nextEvent s).1 (nextEvent s).2) = _
    rw [hn]
  have hpend : t.pending = s.pending := by
    have : t = s.withEnv t.env := hb
    rw [this]; rfl
  cases e with
  | serve c =>
    cases hw : Slots.get c s.pending with
    | none => exact .inr (.inr ⟨by simp [fetch, hpend, hw], by rw [hs]; simp [fetch, hpend, hw]⟩)
    | some w => exact .inl ⟨c, w, rfl, hw, by rw [hs]; simp [fetch, hpend, hw]⟩
  | encode x => exact .inr (.inl ⟨x, rfl, by rw [hs]; simp [fetch, decodeEncoder]⟩)
  | idle => exact .inr (.inr ⟨rfl, hs⟩)
  | request c w => exact .inr (.inr ⟨rfl, hs⟩)
  | cfgPins p => exact .inr (.inr ⟨rfl, hs⟩)
  | reset => exact .inr (.inr ⟨rfl, hs⟩)
  | writeAscii c b rest => exact .inr (.inr ⟨rfl, hs⟩)
  | readAscii c via => exact .inr (.inr ⟨rfl, hs⟩)
  | collect c => exact .inr (.inr ⟨rfl, hs⟩)
  | line c => exact .inr (.inr ⟨rfl, hs⟩)

/-- No step. -/
@[simp] theorem runSteps_zero (s : State) : runSteps 0 s = .next s := rfl

/-- A run goes on after a step that answers next. -/
theorem runSteps_next {s u : State} (h : step s = .next u) (n : Nat) : runSteps (n + 1) s = runSteps n u := by
  have hc : Host.Core.step Sys2Proof.core s = Host.Outcome.next u := h
  simp only [runSteps, Host.Core.run]
  rw [hc]

/-- A run of m + n steps is a run of m, then one of n. -/
theorem runSteps_add {s u : State} {m : Nat} (n : Nat) (h : runSteps m s = .next u) :
    runSteps (m + n) s = runSteps n u := by
  induction m generalizing s with
  | zero => cases h; simp
  | succ m ih =>
    cases hs : step s with
    | next v =>
      rw [runSteps_next hs] at h
      rw [show m + 1 + n = m + n + 1 by omega, runSteps_next hs, ih h]
    | fault r =>
      have hc : Host.Core.step Sys2Proof.core s = Host.Outcome.fault r := hs
      simp only [runSteps, Host.Core.run] at h
      rw [hc] at h; cases h
    | refused r =>
      have hc : Host.Core.step Sys2Proof.core s = Host.Outcome.refused r := hs
      simp only [runSteps, Host.Core.run] at h
      rw [hc] at h; cases h

end Sys2Proof.Machine
end

