-- ==== Sys2Proof/Certificates/Slice0/Obligations.lean ====
section
/-! DEFINITION. The statements for the provers. Each docstring names the rule of spec/ it formalises. A statement about
every state is a statement about every choice of the OPEN parameters (R9) and of the environment, which State holds. -/

open Sys2Proof Sys2Proof.Machine

/-! ## Encodings -/

/-- R78: the four masks and matches of the request word, for every 10-bit word, and the canonical words. -/
def Obligations.RequestWordsDecode : Prop :=
  (∀ w : ReqWord,
    (w &&& 0x300#10 = 0x000#10 → decodeRequest w = .getDigit (w.extractLsb' 0 8)) ∧
    (w &&& 0x300#10 = 0x100#10 → decodeRequest w = .setDigit (w.extractLsb' 0 8)) ∧
    (w &&& 0x300#10 = 0x200#10 → decodeRequest w = .init (w.extractLsb' 0 8)) ∧
    (w &&& 0x300#10 = 0x300#10 → decodeRequest w = .shutdown (w.extractLsb' 0 8))) ∧
  encode (.getDigit 0) = .request 0x000#10 ∧ encode (.init 0) = .request 0x200#10 ∧
  encode (.shutdown 0) = .request 0x300#10 ∧ ∀ v : Value, encode (.setDigit v) = .request (0x100#10 ||| v.zeroExtend 10)

/-- R70, R76, R78: encoding an operation and decoding its word, or the word's bytes, gives the operation back, for every
operation with every operand. -/
def Obligations.DecodeOfEncodeIsInstr : Prop :=
  ∀ i : Instr, i.wellFormed = true →
    decode (encode i) = i ∧ decodeBytes (encode i).bytes.1 (encode i).bytes.2 = .ok i

/-- R78, R79: no bit of a word is dropped: encoding what a word decodes to gives the word back. -/
def Obligations.EncodeOfDecodeIsWord : Prop :=
  ∀ p : PortWord, encode (decode p) = p

/-- Words written out bit by bit from the encodings of R70, R76 and R78. -/
def Obligations.SampleWordsDecode : Prop :=
  decodeRequest 0b0000000000#10 = .getDigit 0 ∧ decodeRequest 0b0100000111#10 = .setDigit 7 ∧
  decodeRequest 0b0111111111#10 = .setDigit 0xFF ∧ decodeRequest 0b1000000000#10 = .init 0 ∧
  decodeRequest 0b1100000000#10 = .shutdown 0 ∧ decodeEncoder 0b00001001#8 = .encode 9

/-- R79, X2: the value bits of GET_DIGIT, INIT and SHUTDOWN change nothing. -/
def Obligations.ValueBitsIgnored : Prop :=
  ∀ (v v' : Value) (s : State),
    exec (.getDigit v) s = exec (.getDigit v') s ∧ exec (.init v) s = exec (.init v') s ∧
    exec (.shutdown v) s = exec (.shutdown v') s

/-- R72: the fields of the response word stand in their places. -/
def Obligations.ResponseFieldsInPlace : Prop :=
  ∀ (st : Status) (info : BitVec 4) (d : Digit),
    (rspWord st info d).extractLsb' 8 3 = st.code ∧ (rspWord st info d).extractLsb' 4 4 = info ∧
    (rspWord st info d).extractLsb' 0 4 = d

/-- R73, R79: OK is 0, INVALID_DIGIT 1, INIT_ERROR 2, HARDWARE_WRITE_ERROR 3, BAD_STATE 4; each code is read back as its
own status; 5, 6 and 7 are no status. -/
def Obligations.StatusCodesInUse : Prop :=
  Status.ok.code = 0 ∧ Status.invalidDigit.code = 1 ∧ Status.initError.code = 2 ∧ Status.hardwareWriteError.code = 3 ∧
  Status.badState.code = 4 ∧ (∀ st : Status, Status.ofCode st.code = some st) ∧
  ∀ c : BitVec 3, Status.ofCode c = none ↔ (c = 5 ∨ c = 6 ∨ c = 7)

/-! ## A step and what it runs -/

/-- A step that serves a caller with a request outstanding is exec of the decoded request word, with that caller active
and the act taken (R8, R78); a step that drives the encoder port is exec of ENCODE on the value driven (R76, R101). -/
def Obligations.StepRunsDecodedInstr : Prop :=
  ∀ (s : State) (rest : List Event),
    (∀ (c : Nat) (w : ReqWord), s.env.events = .serve c :: rest → Slots.get c s.pending = some w →
      step s = exec (decodeRequest w) { s with active := c, env := { s.env with events := rest } }) ∧
    (∀ x : Value, s.env.events = .encode x :: rest →
      step s = exec (.encode x) { s with env := { s.env with events := rest } })

/-- The word a host places is the one the next step runs (the model's choice, notes/assumptions/4.md). -/
def Obligations.PlacedWordRunsNext : Prop :=
  ∀ (s : State) (w : Nat),
    (w < 1024 → ∃ t, step (s.withFetchWord 16 w) = exec (decodeRequest (BitVec.ofNat 10 w)) t ∧
      t.active = 0 ∧ t.seq = none ∧ Slots.get 0 t.pending = some (BitVec.ofNat 10 w) ∧ t.life = s.life ∧
      t.env = s.env ∧ decodeTableWord 16 w = some (decodeRequest (BitVec.ofNat 10 w))) ∧
    (w < 256 → step (s.withFetchWord 8 w) = exec (.encode (BitVec.ofNat 8 w)) s ∧
      decodeTableWord 8 w = some (.encode (BitVec.ofNat 8 w)))

/-- R29: a caller that is free issues a request, which is then outstanding; a caller with one outstanding issues none.
That its last response then leaves the channel is the model's choice (notes/assumptions/6.md). -/
def Obligations.RequestIsIssuedOnce : Prop :=
  ∀ (s : State) (c : Nat) (w : ReqWord) (rest : List Event), s.env.events = .request c w :: rest →
    (callerIdle s c = true → ∃ t, step s = .next t ∧ Slots.get c t.pending = some w ∧ Slots.get c t.rsp = none ∧
      s.sameChannelsBut t c ∧ s.sameBlock t) ∧
    (Slots.get c s.pending ≠ none → step s = .next { s with env := { s.env with events := rest } })

/-- R11, R29: a step that is no reset leaves a caller's channel as it was, or issues its request when it has none, or
answers its request when the caller is served: exactly one response to a request. That a response stays on its channel
until the caller's next request is the model's choice (notes/assumptions/6.md). -/
def Obligations.OneResponsePerRequest : Prop :=
  ∀ (s t : State) (c : Nat), step s = .next t → (nextEvent s).1 ≠ .reset →
    (Slots.get c t.pending = Slots.get c s.pending ∧ Slots.get c t.rsp = Slots.get c s.rsp) ∨
    (Slots.get c s.pending = none ∧ Slots.get c t.pending ≠ none ∧ Slots.get c t.rsp = none) ∨
    ((nextEvent s).1 = .serve c ∧ Slots.get c s.pending ≠ none ∧ Slots.get c t.pending = none ∧
      Slots.get c t.rsp ≠ none)

/-! ## Reset -/

/-- R40: the reset value of every state element, for every choice of parameters and environment, State.reset's too. -/
def Obligations.ResetValues : Prop :=
  (∀ (p : Params) (e : Env),
    (State.resetWith p e).digit = none ∧ (∀ i : Slot, (State.resetWith p e).pinmap[i] = none) ∧
    (∀ i : Slot, (State.resetWith p e).owned[i] = false) ∧ (∀ i : Slot, (State.resetWith p e).out[i] = none) ∧
    (State.resetWith p e).life = .uninit ∧ (State.resetWith p e).seq = none ∧
    (∀ c, Slots.get c (State.resetWith p e).pending = none) ∧ (State.resetWith p e).sync = false) ∧
  State.reset = State.resetWith Config.params Env.atReset

/-- R202: a reset ends an operation at once, without a response, and every element returns to its reset value. That the
response channels are emptied and the parameters and inputs kept is the model's choice (notes/assumptions/12.md). -/
def Obligations.ResetAbandonsOperation : Prop :=
  ∀ (s : State) (rest : List Event), s.env.events = .reset :: rest →
    step s = .next (State.resetWith s.params { s.env with events := rest }) ∧
    ∀ c, Slots.get c (State.resetWith s.params { s.env with events := rest }).rsp = none

/-! ## The encoder -/

/-- R50: the ROM's sixteen entries; bit i is segment i; no entry is 0x00. -/
def Obligations.RomIsTheTable : Prop :=
  rom 0 = 0x3F ∧ rom 1 = 0x06 ∧ rom 2 = 0x5B ∧ rom 3 = 0x4F ∧ rom 4 = 0x66 ∧ rom 5 = 0x6D ∧ rom 6 = 0x7D ∧
  rom 7 = 0x07 ∧ rom 8 = 0x7F ∧ rom 9 = 0x67 ∧ rom 10 = 0x77 ∧ rom 11 = 0x7C ∧ rom 12 = 0x39 ∧ rom 13 = 0x5E ∧
  rom 14 = 0x79 ∧ rom 15 = 0x71 ∧ (∀ d, rom d ≠ 0) ∧
  ∀ (d : Digit) (i : Slot), segBit (rom d) i = (rom d).getLsbD i.val

/-- R101: ENCODE in every state and for every input: the result on the port, and nothing else of the machine changes. -/
def Obligations.EncodeGivesPattern : Prop :=
  ∀ (x : Value) (s : State),
    (x.toNat ≤ 15 → exec (.encode x) s = .next { s with encOut := some (.ok (rom (x.extractLsb' 0 4))) } ∧
      (EncResult.ok (rom (x.extractLsb' 0 4))).seg = rom (x.extractLsb' 0 4) ∧
      (EncResult.ok (rom (x.extractLsb' 0 4))).invalid = false) ∧
    (15 < x.toNat → exec (.encode x) s = .next { s with encOut := some .invalidDigit } ∧
      EncResult.invalidDigit.seg = 0 ∧ EncResult.invalidDigit.invalid = true)

/-- R102: ENCODE is one to one on the digits, and its result is the same in any two states. -/
def Obligations.EncodeIsOneToOne : Prop :=
  (∀ d e : Digit, rom d = rom e → d = e) ∧
  ∀ (x : Value) (s s' t t' : State), exec (.encode x) s = .next t → exec (.encode x) s' = .next t' →
    t.encOut = t'.encOut

/-! ## The GPIO primitives -/

/-- R55: a write of an owned slot: the requested level when the environment answers OK, a drawn one when it fails; the
ownership and every other slot as before. SYNC is cleared by a failed write (R30, notes/assumptions/16.md). -/
def Obligations.WriteSetsOneSlot : Prop :=
  ∀ (s : State) (c : Nat) (ph : WritePhase) (k : Slot) (l : Level) (e : Env),
    s.pinmap[k] ≠ none → s.owned[k] = true →
    (s.env.takeWrite c ph k = (.ok, e) →
      gpioWrite c ph k l s = .ok (.ok, { s with env := e, out := s.out.set k (some l) })) ∧
    (s.env.takeWrite c ph k = (.fail, e) →
      gpioWrite c ph k l s =
        .ok (.fail, { s with env := e.takeDraw.2, out := s.out.set k (some e.takeDraw.1), sync := false }))

/-- R56: a claim is forced to fail on a pin owned through another slot; otherwise the environment answers; OK owns and
drives the slot, FAIL changes nothing of the block. That a forced failure also uses up a directive naming the next claim
is the model's reading of R82 (notes/assumptions/18.md). -/
def Obligations.ClaimOwnsOneSlot : Prop :=
  ∀ (s : State) (k : Slot) (l : Level) (p : PinId) (e : Env), s.pinmap[k] = some p →
    ((∃ j : Slot, j ≠ k ∧ s.owned[j] = true ∧ s.pinmap[j] = some p) →
      gpioClaim k l s = .ok (.fail, { s with env := s.env.spend (.claimFail k) })) ∧
    ((∀ j : Slot, j ≠ k → s.owned[j] = true → s.pinmap[j] ≠ some p) →
      (s.env.takeClaim k = (.ok, e) →
        gpioClaim k l s = .ok (.ok, { s with env := e, owned := s.owned.set k true, out := s.out.set k (some l) })) ∧
      (s.env.takeClaim k = (.fail, e) → gpioClaim k l s = .ok (.fail, { s with env := e })))

/-- R58: a release of an owned slot cannot fail; the slot is then not owned and not driven. -/
def Obligations.ReleaseFreesOneSlot : Prop :=
  ∀ (s : State) (k : Slot), s.pinmap[k] ≠ none → s.owned[k] = true →
    gpioRelease k s = .ok { s with owned := s.owned.set k false, out := s.out.set k none }

/-- R13, R28, R55, R58: where a micro-step stops: SEQ.k is 7 and names no slot, its slot has no pin, or it writes or
releases a slot that is not owned. That the first and the last are stops is the model's choice
(notes/assumptions/17.md): the rules give no effect there. -/
def Obligations.PinMicroStepsStop : Prop :=
  ∀ (s : State) (r : SeqRec) (v : Value), s.seq = some r → r.caller = s.active →
    (r.k = 7 →
      (r.phase = .claim → exec (.init v) s = .fault .noSlot) ∧
      (∀ err, r.phase = .unwind err → exec (.init v) s = .fault .noSlot) ∧
      (∀ pat val, r.phase = .clear pat val → exec (.setDigit v) s = .fault .noSlot) ∧
      (∀ pat val, r.phase = .setOn pat val → exec (.setDigit v) s = .fault .noSlot) ∧
      (r.phase = .off → exec (.shutdown v) s = .fault .noSlot) ∧
      (r.phase = .release → exec (.shutdown v) s = .fault .noSlot)) ∧
    ∀ k : Slot, r.k = slotIndex k →
    (s.pinmap[k] = none →
      (r.phase = .claim → exec (.init v) s = .fault (.pinmapNone k)) ∧
      (∀ err, r.phase = .unwind err → exec (.init v) s = .fault (.pinmapNone k)) ∧
      (∀ pat val, r.phase = .clear pat val → exec (.setDigit v) s = .fault (.pinmapNone k)) ∧
      (∀ pat val, r.phase = .setOn pat val → exec (.setDigit v) s = .fault (.pinmapNone k)) ∧
      (r.phase = .off → exec (.shutdown v) s = .fault (.pinmapNone k)) ∧
      (r.phase = .release → exec (.shutdown v) s = .fault (.pinmapNone k))) ∧
    (s.pinmap[k] ≠ none → s.owned[k] = false →
      (∀ err, r.phase = .unwind err → exec (.init v) s = .fault (.slotNotOwned k)) ∧
      (∀ pat val, r.phase = .clear pat val → exec (.setDigit v) s = .fault (.slotNotOwned k)) ∧
      (∀ pat val, r.phase = .setOn pat val → exec (.setDigit v) s = .fault (.slotNotOwned k)) ∧
      (r.phase = .off → exec (.shutdown v) s = .fault (.slotNotOwned k)) ∧
      (r.phase = .release → exec (.shutdown v) s = .fault (.slotNotOwned k)))

/-! ## GET_DIGIT -/

/-- R150: GET_DIGIT answers at once in every state that has a digit when READY, whether or not the lock is held, and
writes only its caller's channel. -/
def Obligations.GetDigitAnswers : Prop :=
  ∀ (s : State) (v : Value),
    (s.life = .uninit → exec (.getDigit v) s =
      .next { s with pending := Slots.erase s.active s.pending,
                     rsp := Slots.set s.active (rspWord .badState 0 0) s.rsp }) ∧
    (∀ d, s.life = .ready → s.digit = some d → exec (.getDigit v) s =
      .next { s with pending := Slots.erase s.active s.pending,
                     rsp := Slots.set s.active (rspWord .ok 0 d) s.rsp })

/-- R13, R201: reading DIGIT = none is a fault, never a value. -/
def Obligations.GetDigitOfNoneStops : Prop :=
  ∀ (s : State) (v : Value), s.life = .ready → s.digit = none → exec (.getDigit v) s = .fault .digitNone

/-! ## SET_DIGIT -/

/-- R141: SET_DIGIT's acquisition when the lock is free: the lifecycle is checked first, then the range. -/
def Obligations.SetDigitAcquires : Prop :=
  ∀ (s : State) (v : Value), s.seq = none →
    (s.life = .uninit → exec (.setDigit v) s =
      .next { s with pending := Slots.erase s.active s.pending,
                     rsp := Slots.set s.active (rspWord .badState 0 0) s.rsp }) ∧
    (s.life = .ready → 15 < v.toNat → exec (.setDigit v) s =
      .next { s with pending := Slots.erase s.active s.pending,
                     rsp := Slots.set s.active (rspWord .invalidDigit 0 0) s.rsp }) ∧
    (s.life = .ready → v.toNat ≤ 15 → exec (.setDigit v) s =
      .next { s with sync := false,
                     seq := some { caller := s.active,
                                   phase := .clear (rom (v.extractLsb' 0 4)) (v.extractLsb' 0 4), k := 0 } })

/-- R142: a clear write that succeeds. -/
def Obligations.SetDigitClears : Prop :=
  ∀ (s : State) (v : Value) (r : SeqRec) (k : Slot) (pat : Pattern) (val : Digit) (e : Env),
    s.seq = some r → r.caller = s.active → r.k = slotIndex k →
    r.phase = .clear pat val → s.pinmap[k] ≠ none → s.owned[k] = true →
    s.env.takeWrite r.caller .clear k = (.ok, e) →
    ∃ q, exec (.setDigit v) s =
        .next { s with env := e, out := s.out.set k (some (!s.params.activeLevel)), seq := some q } ∧
      (∀ k' : Slot, k'.val = k.val + 1 → q = { r with k := slotIndex k' }) ∧
      (k = 6 → pat = 0 → q = { r with phase := .commitSet pat val }) ∧
      (k = 6 → ∀ j : Slot, segBit pat j = true → (∀ i : Slot, i < j → segBit pat i = false) →
        q = { r with phase := .setOn pat val, k := slotIndex j })

/-- R143: a set write that succeeds. -/
def Obligations.SetDigitLights : Prop :=
  ∀ (s : State) (v : Value) (r : SeqRec) (k : Slot) (pat : Pattern) (val : Digit) (e : Env),
    s.seq = some r → r.caller = s.active → r.k = slotIndex k →
    r.phase = .setOn pat val → s.pinmap[k] ≠ none → s.owned[k] = true →
    s.env.takeWrite r.caller .setOn k = (.ok, e) →
    ∃ q, exec (.setDigit v) s =
        .next { s with env := e, out := s.out.set k (some s.params.activeLevel), seq := some q } ∧
      (∀ j : Slot, k < j → segBit pat j = true → (∀ i : Slot, k < i → i < j → segBit pat i = false) →
        q = { r with k := slotIndex j }) ∧
      ((∀ i : Slot, k < i → segBit pat i = false) → q = { r with phase := .commitSet pat val })

/-- R144: a write that fails, in either phase: the operation ends there with HARDWARE_WRITE_ERROR and the failing slot,
DIGIT is unchanged, and that slot alone has a drawn level. -/
def Obligations.SetDigitWriteFails : Prop :=
  ∀ (s : State) (v : Value) (r : SeqRec) (k : Slot) (pat : Pattern) (val : Digit) (e : Env),
    s.seq = some r → r.caller = s.active → r.k = slotIndex k →
    s.pinmap[k] ≠ none → s.owned[k] = true →
    (r.phase = .clear pat val → s.env.takeWrite r.caller .clear k = (.fail, e) → exec (.setDigit v) s =
      .next { s with env := e.takeDraw.2, out := s.out.set k (some e.takeDraw.1), sync := false, seq := none,
                     pending := Slots.erase r.caller s.pending,
                     rsp := Slots.set r.caller
                       (rspWord .hardwareWriteError (0#1 ++ BitVec.ofNat 3 k.val) 0) s.rsp }) ∧
    (r.phase = .setOn pat val → s.env.takeWrite r.caller .setOn k = (.fail, e) → exec (.setDigit v) s =
      .next { s with env := e.takeDraw.2, out := s.out.set k (some e.takeDraw.1), sync := false, seq := none,
                     pending := Slots.erase r.caller s.pending,
                     rsp := Slots.set r.caller
                       (rspWord .hardwareWriteError (1#1 ++ BitVec.ofNat 3 k.val) 0) s.rsp })

/-- R146: SET_DIGIT's commit. -/
def Obligations.SetDigitCommits : Prop :=
  ∀ (s : State) (v : Value) (r : SeqRec) (pat : Pattern) (val : Digit),
    s.seq = some r → r.caller = s.active → r.phase = .commitSet pat val →
    exec (.setDigit v) s =
      .next { s with digit := some val, sync := true, seq := none, pending := Slots.erase r.caller s.pending,
                     rsp := Slots.set r.caller (rspWord .ok 0 0) s.rsp }

/-- R192, R41.5: in a sound state the commit that comes last leaves the pins showing exactly its own digit. -/
def Obligations.SetDigitCommitShowsDigit : Prop :=
  ∀ (s t : State) (v : Value) (r : SeqRec) (pat : Pattern) (val : Digit), s.Inv →
    s.seq = some r → r.caller = s.active → r.phase = .commitSet pat val → exec (.setDigit v) s = .next t →
    t.digit = some val ∧ t.drives (rom val)

/-- The frame of one SET_DIGIT micro-step: the pin map, ownership, lifecycle, the other callers' channels and the world
outside are unchanged; OUT changes at most at the slot the micro-step writes; DIGIT changes only in the commit phase. -/
def Obligations.SetDigitFrame : Prop :=
  ∀ (s t : State) (v : Value), exec (.setDigit v) s = .next t →
    t.pinmap = s.pinmap ∧ t.owned = s.owned ∧ t.life = s.life ∧ s.sameWorld t ∧
    (∀ r, s.seq = some r → r.caller = s.active → s.sameChannelsBut t r.caller) ∧
    ((∀ r, s.seq = some r → r.caller ≠ s.active) → s.sameChannelsBut t s.active) ∧
    (∀ k, s.pinTarget = some k → ∀ i : Slot, i ≠ k → t.out[i] = s.out[i]) ∧
    (s.pinTarget = none → t.out = s.out) ∧
    ((∀ r pat val, s.seq = some r → r.phase ≠ .commitSet pat val) → t.digit = s.digit)

/-! ## INIT -/

/-- R112: INIT's acquisition when the lock is free: BAD_STATE when READY, otherwise all seven of cfg_pin are sampled; and no
step but this one (and a reset, R40) writes PINMAP. -/
def Obligations.InitAcquires : Prop :=
  (∀ (s : State) (v : Value), s.seq = none →
    (s.life = .ready → exec (.init v) s =
      .next { s with pending := Slots.erase s.active s.pending,
                     rsp := Slots.set s.active (rspWord .badState 0 0) s.rsp }) ∧
    (s.life = .uninit → exec (.init v) s =
      .next { s with pinmap := samplePins s.env.cfgPin,
                     seq := some { caller := s.active, phase := .claim, k := 0 } })) ∧
  (∀ (p : PerSlot PinId) (i : Slot), (samplePins p)[i] = some p[i]) ∧
  ∀ s t : State, step s = .next t → t.pinmap ≠ s.pinmap →
    (nextEvent s).1 = .reset ∨
    ∃ c v, (nextEvent s).1 = .serve c ∧ s.requests c (.init v) ∧ s.seq = none ∧ s.life = .uninit ∧
      t.pinmap = samplePins s.env.cfgPin

/-- R113: a claim that succeeds. -/
def Obligations.InitClaims : Prop :=
  ∀ (s : State) (v : Value) (r : SeqRec) (k : Slot) (p : PinId) (e : Env),
    s.seq = some r → r.caller = s.active → r.k = slotIndex k →
    r.phase = .claim → s.pinmap[k] = some p →
    (∀ j : Slot, j ≠ k → s.owned[j] = true → s.pinmap[j] ≠ some p) → s.env.takeClaim k = (.ok, e) →
    ∃ q, exec (.init v) s =
        .next { s with env := e, owned := s.owned.set k true,
                       out := s.out.set k (some (!s.params.activeLevel)), seq := some q } ∧
      (∀ k' : Slot, k'.val = k.val + 1 → q = { r with k := slotIndex k' }) ∧
      (k = 6 → q = { r with phase := .commitInit })

/-- R114, R56: a claim that fails, by the environment's answer or because the pin is owned already: INIT ends at slot 0,
and unwinds from the slot below otherwise. That a forced failure also uses up a directive naming the next claim is the
model's reading of R82 (notes/assumptions/18.md). -/
def Obligations.InitClaimFails : Prop :=
  ∀ (s : State) (v : Value) (r : SeqRec) (k : Slot) (p : PinId) (e : Env),
    s.seq = some r → r.caller = s.active → r.k = slotIndex k →
    r.phase = .claim → s.pinmap[k] = some p →
    (((∃ j : Slot, j ≠ k ∧ s.owned[j] = true ∧ s.pinmap[j] = some p) ∧ e = s.env.spend (.claimFail k)) ∨
     ((∀ j : Slot, j ≠ k → s.owned[j] = true → s.pinmap[j] ≠ some p) ∧ s.env.takeClaim k = (.fail, e))) →
    (k = 0 → exec (.init v) s =
      .next { s with env := e, seq := none, pending := Slots.erase r.caller s.pending,
                     rsp := Slots.set r.caller (rspWord .initError 0 0) s.rsp }) ∧
    (∀ k' : Slot, k.val = k'.val + 1 → exec (.init v) s =
      .next { s with env := e, seq := some { r with phase := .unwind k, k := slotIndex k' } })

/-- R115: INIT's commit; in a sound state all seven pins are then inactive. -/
def Obligations.InitCommits : Prop :=
  ∀ (s : State) (v : Value) (r : SeqRec),
    s.seq = some r → r.caller = s.active → r.phase = .commitInit →
    exec (.init v) s =
      .next { s with digit := some s.params.defaultDigit, life := .ready, sync := false, seq := none,
                     pending := Slots.erase r.caller s.pending,
                     rsp := Slots.set r.caller (rspWord .ok 0 0) s.rsp } ∧
    (s.Inv → ∀ i : Slot, s.out[i] = some (!s.params.activeLevel))

/-- R116: an unwinding release; the last one answers INIT_ERROR with the slot whose claim failed. -/
def Obligations.InitUnwinds : Prop :=
  ∀ (s : State) (v : Value) (r : SeqRec) (k : Slot) (err : Slot),
    s.seq = some r → r.caller = s.active → r.k = slotIndex k →
    r.phase = .unwind err → s.pinmap[k] ≠ none → s.owned[k] = true →
    (k = 0 → exec (.init v) s =
      .next { s with owned := s.owned.set k false, out := s.out.set k none, seq := none,
                     pending := Slots.erase r.caller s.pending,
                     rsp := Slots.set r.caller (rspWord .initError (0#1 ++ BitVec.ofNat 3 err.val) 0) s.rsp }) ∧
    (∀ k' : Slot, k.val = k'.val + 1 → exec (.init v) s =
      .next { s with owned := s.owned.set k false, out := s.out.set k none, seq := some { r with k := slotIndex k' } })

/-- The frame of one INIT micro-step: the other callers' channels and the world outside are unchanged; ownership and OUT
change at most at the slot the micro-step claims or releases; DIGIT and LIFE change only in the commit phase, PINMAP
only in the acquisition. -/
def Obligations.InitFrame : Prop :=
  ∀ (s t : State) (v : Value), exec (.init v) s = .next t →
    s.sameWorld t ∧
    (∀ r, s.seq = some r → r.caller = s.active → s.sameChannelsBut t r.caller) ∧
    ((∀ r, s.seq = some r → r.caller ≠ s.active) → s.sameChannelsBut t s.active) ∧
    (∀ k, s.pinTarget = some k → ∀ i : Slot, i ≠ k → t.owned[i] = s.owned[i] ∧ t.out[i] = s.out[i]) ∧
    (s.pinTarget = none → t.owned = s.owned ∧ t.out = s.out) ∧
    ((∀ r, s.seq = some r → r.phase ≠ .commitInit) → t.digit = s.digit ∧ t.life = s.life ∧ t.sync = s.sync) ∧
    (s.seq ≠ none → t.pinmap = s.pinmap)

/-! ## SHUTDOWN -/

/-- R121: SHUTDOWN's acquisition when the lock is free: a no-op on an UNINIT controller. -/
def Obligations.ShutdownAcquires : Prop :=
  ∀ (s : State) (v : Value), s.seq = none →
    (s.life = .uninit → exec (.shutdown v) s =
      .next { s with pending := Slots.erase s.active s.pending,
                     rsp := Slots.set s.active (rspWord .ok 0 0) s.rsp }) ∧
    (s.life = .ready → exec (.shutdown v) s =
      .next { s with life := .uninit, digit := none, sync := false,
                     seq := some { caller := s.active, phase := .off, k := 0 } })

/-- R122: an inactive write: the slot takes the inactive level, or a drawn one when the write fails, and SHUTDOWN goes on
either way. That a failed one clears SYNC rests on R30, by inference (notes/assumptions/16.md). -/
def Obligations.ShutdownWritesInactive : Prop :=
  ∀ (s : State) (v : Value) (r : SeqRec) (k : Slot) (a : GpioAnswer) (e : Env),
    s.seq = some r → r.caller = s.active → r.k = slotIndex k →
    r.phase = .off → s.pinmap[k] ≠ none → s.owned[k] = true →
    s.env.takeWrite r.caller .off k = (a, e) →
    ∃ q, exec (.shutdown v) s =
        (match a with
          | .ok => .next { s with env := e, out := s.out.set k (some (!s.params.activeLevel)), seq := some q }
          | .fail => .next { s with env := e.takeDraw.2, out := s.out.set k (some e.takeDraw.1), sync := false,
                                    seq := some q }) ∧
      (∀ k' : Slot, k'.val = k.val + 1 → q = { r with k := slotIndex k' }) ∧
      (k = 6 → q = { r with phase := .release, k := 0 })

/-- R123: a release; the last one frees the lock and answers OK. -/
def Obligations.ShutdownReleases : Prop :=
  ∀ (s : State) (v : Value) (r : SeqRec) (k : Slot),
    s.seq = some r → r.caller = s.active → r.k = slotIndex k →
    r.phase = .release → s.pinmap[k] ≠ none → s.owned[k] = true →
    (k = 6 → exec (.shutdown v) s =
      .next { s with owned := s.owned.set k false, out := s.out.set k none, seq := none,
                     pending := Slots.erase r.caller s.pending,
                     rsp := Slots.set r.caller (rspWord .ok 0 0) s.rsp }) ∧
    (∀ k' : Slot, k'.val = k.val + 1 → exec (.shutdown v) s =
      .next { s with owned := s.owned.set k false, out := s.out.set k none, seq := some { r with k := slotIndex k' } })

/-- The frame of one SHUTDOWN micro-step: the pin map, the other callers' channels and the world outside are unchanged;
ownership and OUT change at most at the slot it writes or releases; DIGIT and LIFE change only in the acquisition. -/
def Obligations.ShutdownFrame : Prop :=
  ∀ (s t : State) (v : Value), exec (.shutdown v) s = .next t →
    t.pinmap = s.pinmap ∧ s.sameWorld t ∧
    (∀ r, s.seq = some r → r.caller = s.active → s.sameChannelsBut t r.caller) ∧
    ((∀ r, s.seq = some r → r.caller ≠ s.active) → s.sameChannelsBut t s.active) ∧
    (∀ k, s.pinTarget = some k → ∀ i : Slot, i ≠ k → t.owned[i] = s.owned[i] ∧ t.out[i] = s.out[i]) ∧
    (s.pinTarget = none → t.owned = s.owned ∧ t.out = s.out) ∧
    (s.seq ≠ none → t.digit = s.digit ∧ t.life = s.life)

/-! ## The lock -/

/-- R64: a request for the lock that another caller holds waits: its micro-step changes nothing. -/
def Obligations.LockHeldRequestsWait : Prop :=
  ∀ (s : State) (r : SeqRec) (v : Value), s.seq = some r → r.caller ≠ s.active →
    exec (.setDigit v) s = .next s ∧ exec (.init v) s = .next s ∧ exec (.shutdown v) s = .next s

/-- R27, R62: while an operation holds the lock, a step that serves another caller, or serves none and is no reset,
leaves the lock, the pins, the pin map, DIGIT, LIFE and SYNC as they were. -/
def Obligations.LockKeepsOthersOut : Prop :=
  ∀ (s t : State) (r : SeqRec), s.seq = some r → step s = .next t →
    (nextEvent s).1 ≠ .serve r.caller → (nextEvent s).1 ≠ .reset →
    t.seq = s.seq ∧ t.out = s.out ∧ t.owned = s.owned ∧ t.pinmap = s.pinmap ∧ t.digit = s.digit ∧ t.life = s.life ∧
    t.sync = s.sync

/-- R64, R65, R212: an operation that holds the lock in a sound state, served again and again, ends within its bound of
micro-steps, whatever the environment answers: the lock is free and its caller has a response. With the acquisition it
takes at most 16. -/
def Obligations.LockReleasedInTime : Prop :=
  ∀ (s : State) (r : SeqRec), s.Inv → s.seq = some r → s.servesNext r.caller r.stepsLeft →
    1 + r.stepsLeft ≤ 16 ∧ ∃ n t, n ≤ r.stepsLeft ∧ runSteps n s = .next t ∧ t.seq = none ∧
      Slots.get r.caller t.pending = none ∧ Slots.get r.caller t.rsp ≠ none

/-! ## Whole operations -/

/-- R147, R65: a SET_DIGIT of a digit in range, on a READY controller, with every write OK and served without a pause,
takes 9 micro-steps and one more for each lit segment, and ends with the digit committed and exactly its pattern driven. -/
def Obligations.SetDigitRunsToCommit : Prop :=
  ∀ (s : State) (c : Nat) (v : Value), s.life = .ready → s.seq = none → s.pinsHeld → s.requests c (.setDigit v) →
    v.toNat ≤ 15 → s.env.failsNothing = true → s.servesNext c (9 + popcount (rom (v.extractLsb' 0 4))) →
    ∃ t, runSteps (9 + popcount (rom (v.extractLsb' 0 4))) s = .next t ∧ t.digit = some (v.extractLsb' 0 4) ∧
      t.drives (rom (v.extractLsb' 0 4)) ∧ t.sync = true ∧ t.seq = none ∧ t.answered c (rspWord .ok 0 0) ∧
      t.owned = s.owned ∧ t.pinmap = s.pinmap ∧ t.life = .ready ∧ t.params = s.params ∧ s.sameChannelsBut t c

/-- R67, R192: after any number of the micro-steps of such a SET_DIGIT, the lit segments are all ones that were lit at
its acquisition, or all ones of the new pattern: no mixture is ever driven. -/
def Obligations.SetDigitNeverMixes : Prop :=
  ∀ (s : State) (c : Nat) (v : Value) (n : Nat), s.life = .ready → s.seq = none → s.pinsHeld →
    s.requests c (.setDigit v) → v.toNat ≤ 15 → s.env.failsNothing = true →
    n ≤ 9 + popcount (rom (v.extractLsb' 0 4)) → s.servesNext c n →
    ∃ t, runSteps n s = .next t ∧
      ((∀ i : Slot, t.lit i → s.lit i) ∨ (∀ i : Slot, t.lit i → segBit (rom (v.extractLsb' 0 4)) i = true))

/-- R144: a SET_DIGIT whose clear write of slot k is the first to fail ends there, whether a directive or the free
environment fails it: the slots below are inactive, slot k has some level, the slots above keep theirs, DIGIT is
unchanged. u is the state before that write; its lock is still held, so every write before it was OK. -/
def Obligations.SetDigitFailsWhileClearing : Prop :=
  ∀ (s u : State) (c : Nat) (v : Value) (k : Slot), s.life = .ready → s.seq = none → s.pinsHeld →
    s.requests c (.setDigit v) → v.toNat ≤ 15 → s.servesNext c (k.val + 2) →
    runSteps (k.val + 1) s = .next u → u.seq ≠ none → (u.env.takeWrite c .clear k).1 = .fail →
    ∃ t, runSteps (k.val + 2) s = .next t ∧
      t.answered c (rspWord .hardwareWriteError (0#1 ++ BitVec.ofNat 3 k.val) 0) ∧ t.digit = s.digit ∧
      t.sync = false ∧ t.seq = none ∧ t.owned = s.owned ∧ t.life = .ready ∧
      (∀ i : Slot, i < k → t.out[i] = some (!s.params.activeLevel)) ∧ t.out[k] ≠ none ∧
      ∀ i : Slot, k < i → t.out[i] = s.out[i]

/-- R144: a SET_DIGIT whose set write of slot k is the first write to fail ends there, whether a directive or the free
environment fails it: the slots below show the new pattern, slot k has some level, the slots above are inactive, DIGIT is
unchanged. u is the state before that write; its lock is still held, so every write before it was OK. -/
def Obligations.SetDigitFailsWhileLighting : Prop :=
  ∀ (s u : State) (c n : Nat) (v : Value) (k : Slot), s.life = .ready → s.seq = none → s.pinsHeld →
    s.requests c (.setDigit v) → v.toNat ≤ 15 → segBit (rom (v.extractLsb' 0 4)) k = true →
    n = 8 + allSlots.countP (fun j => decide (j < k) && segBit (rom (v.extractLsb' 0 4)) j) → s.servesNext c (n + 1) →
    runSteps n s = .next u → u.seq ≠ none → (u.env.takeWrite c .setOn k).1 = .fail →
    ∃ t, runSteps (n + 1) s = .next t ∧
      t.answered c (rspWord .hardwareWriteError (1#1 ++ BitVec.ofNat 3 k.val) 0) ∧ t.digit = s.digit ∧
      t.sync = false ∧ t.seq = none ∧ t.owned = s.owned ∧ t.life = .ready ∧
      (∀ i : Slot, i < k → t.out[i] = some (lvl s.params (segBit (rom (v.extractLsb' 0 4)) i))) ∧ t.out[k] ≠ none ∧
      ∀ i : Slot, k < i → t.out[i] = some (!s.params.activeLevel)

/-- R117, R118, R65: an INIT on an idle UNINIT controller, with seven distinct pins and every claim OK, takes 9
micro-steps and ends READY, with DEFAULT_DIGIT, every slot owned and inactive. -/
def Obligations.InitRunsToReady : Prop :=
  ∀ (s : State) (c : Nat) (v : Value), s.life = .uninit → s.seq = none → (∀ i : Slot, s.owned[i] = false) →
    s.requests c (.init v) → (∀ i j : Slot, i ≠ j → s.env.cfgPin[i] ≠ s.env.cfgPin[j]) → s.env.failsNothing = true →
    s.servesNext c 9 →
    ∃ t, runSteps 9 s = .next t ∧ t.life = .ready ∧ t.digit = some s.params.defaultDigit ∧
      (∀ i : Slot, t.owned[i] = true ∧ t.out[i] = some (!s.params.activeLevel)) ∧
      (∀ i : Slot, t.pinmap[i] = some s.env.cfgPin[i]) ∧ t.seq = none ∧ t.sync = false ∧ t.answered c (rspWord .ok 0 0) ∧
      t.params = s.params ∧ s.sameChannelsBut t c

/-- R116, R117, R182, R65: in a test program's environment, an INIT on an idle UNINIT controller whose claim of slot k is
the first to fail, by a directive or because its pin is a duplicate, takes 2 + 2 k micro-steps, answers INIT_ERROR with
k, and leaves no slot owned or driven. -/
def Obligations.InitFailureReleasesAll : Prop :=
  ∀ (s : State) (c : Nat) (v : Value) (k : Slot), s.life = .uninit → s.seq = none →
    (∀ i : Slot, s.owned[i] = false ∧ s.out[i] = none) → s.requests c (.init v) → s.env.scripted = true →
    s.claimWillFail k → (∀ j : Slot, j < k → ¬ s.claimWillFail j) → s.servesNext c (2 + 2 * k.val) →
    ∃ t, runSteps (2 + 2 * k.val) s = .next t ∧
      t.answered c (rspWord .initError (0#1 ++ BitVec.ofNat 3 k.val) 0) ∧
      (∀ i : Slot, t.owned[i] = false ∧ t.out[i] = none) ∧ t.life = .uninit ∧ t.digit = s.digit ∧ t.sync = s.sync ∧
      t.seq = none ∧ (∀ i : Slot, t.pinmap[i] = some s.env.cfgPin[i]) ∧ s.sameChannelsBut t c

/-- R124, R125, R65: a SHUTDOWN on a READY controller takes 15 micro-steps, whatever the environment answers, answers OK,
and leaves it UNINIT with no digit and no slot owned or driven; PINMAP is kept. -/
def Obligations.ShutdownRunsToUninit : Prop :=
  ∀ (s : State) (c : Nat) (v : Value), s.life = .ready → s.seq = none → s.pinsHeld → s.requests c (.shutdown v) →
    s.servesNext c 15 →
    ∃ t, runSteps 15 s = .next t ∧ t.life = .uninit ∧ t.digit = none ∧ t.sync = false ∧
      (∀ i : Slot, t.owned[i] = false ∧ t.out[i] = none) ∧ t.pinmap = s.pinmap ∧ t.seq = none ∧
      t.answered c (rspWord .ok 0 0) ∧ t.params = s.params ∧ s.sameChannelsBut t c

/-! ## The whole machine -/

/-- A step from a sound state leads to a sound state: R41's invariants, and those of every phase, are kept by every act of
every agent, whatever the parameters and the environment. -/
def Obligations.StepKeepsInvariant : Prop :=
  ∀ s t : State, s.Inv → step s = .next t → t.Inv

/-- The machine is sound after reset. -/
def Obligations.ResetIsSound : Prop := State.reset.Inv

/-- R57, R185: from a sound state every step goes on: no fault, no refusal, no wait without end inside a micro-step. -/
def Obligations.SoundStatesNeverStop : Prop :=
  ∀ s : State, s.Inv → ∃ t, step s = .next t

/-- R41: its six invariants hold of every state reached in any number of steps from reset, for every choice of the
parameters and of a world outside whose operation numbers are in canonical form. -/
def Obligations.ReachableStatesKeepR41 : Prop :=
  ∀ (p : Params) (e : Env) (n : Nat) (t : State), Slots.wf e.opNo = true →
    runSteps n (State.resetWith p e) = .next t → t.R41

/-- R22, R62: a step that is no reset changes DIGIT only in INIT's commit, SET_DIGIT's commit or SHUTDOWN's acquisition,
each serving its own caller, and to the value that rule gives. -/
def Obligations.DigitHasThreeWriters : Prop :=
  ∀ s t : State, step s = .next t → t.digit ≠ s.digit → (nextEvent s).1 ≠ .reset →
    (∃ r v, s.seq = some r ∧ (nextEvent s).1 = .serve r.caller ∧ s.requests r.caller (.init v) ∧
      r.phase = .commitInit ∧ t.digit = some s.params.defaultDigit) ∨
    (∃ r v pat val, s.seq = some r ∧ (nextEvent s).1 = .serve r.caller ∧ s.requests r.caller (.setDigit v) ∧
      r.phase = .commitSet pat val ∧ t.digit = some val) ∨
    (∃ c v, s.seq = none ∧ (nextEvent s).1 = .serve c ∧ s.requests c (.shutdown v) ∧ s.life = .ready ∧
      t.digit = none)

/-- No step writes the parameters of R9 (inferred, notes/assumptions/1.md), and cfg_pin, an input the platform drives (R33,
R77), changes only by the platform's act (inferred, notes/assumptions/11.md). That a reset step keeps both is the model's
choice (notes/assumptions/12.md). R33: the platform's act, in every state, has no effect but on cfg_pin itself (and the
taking of the act). -/
def Obligations.ParametersNeverChange : Prop :=
  (∀ s t : State, step s = .next t →
    t.params = s.params ∧ ((∀ p, (nextEvent s).1 ≠ .cfgPins p) → t.env.cfgPin = s.env.cfgPin)) ∧
  ∀ (s : State) (p : PerSlot PinId), (nextEvent s).1 = .cfgPins p →
    step s = .next { s with env := { (nextEvent s).2.env with cfgPin := p } } ∧
    ∀ rest, s.env.events = .cfgPins p :: rest → (nextEvent s).2.env = { s.env with events := rest }

/-! ## The front ends -/

/-- R171: WRITE_ASCII by a caller that is free: '0'..'9', and 'A'..'F' when hex is accepted, issue SET_DIGIT; any other
byte is rejected and issues nothing. The rest of the payload plays no part. The result is the SET_DIGIT's response. That
the front end takes it in an act of its own (notes/assumptions/19.md), and that it stays on the channel
(notes/assumptions/6.md), are the model's choices. -/
def Obligations.WriteAsciiIssuesSetDigit : Prop :=
  (∀ (s : State) (c : Nat) (b : Byte) (rest : List Byte) (acts : List Event),
    s.env.events = .writeAscii c b rest :: acts → callerIdle s c = true →
    ∃ t, step s = .next t ∧ s.sameBlock t ∧
      (0x30 ≤ b.toNat → b.toNat ≤ 0x39 →
        t.requests c (.setDigit (b - 0x30)) ∧ Slots.get c t.front = some .writing) ∧
      (s.params.hexAscii = true → 0x41 ≤ b.toNat → b.toNat ≤ 0x46 →
        t.requests c (.setDigit (b - 0x41 + 10)) ∧ Slots.get c t.front = some .writing) ∧
      (¬ (0x30 ≤ b.toNat ∧ b.toNat ≤ 0x39) → ¬ (s.params.hexAscii = true ∧ 0x41 ≤ b.toNat ∧ b.toNat ≤ 0x46) →
        t.pending = s.pending ∧ Slots.get c t.front = some (.done .reject))) ∧
  ∀ (s : State) (c : Nat) (st : Status) (info : BitVec 4) (d : Digit) (acts : List Event),
    s.env.events = .collect c :: acts → Slots.get c s.front = some .writing →
    Slots.get c s.rsp = some (rspWord st info d) →
    ∃ t, step s = .next t ∧ s.sameBlock t ∧ t.pending = s.pending ∧ t.rsp = s.rsp ∧
      Slots.get c t.front = some (.done (.response (rspWord st info d)))

/-- R172: READ_ASCII by a caller that is free issues GET_DIGIT; its front end then formats the response: an error unless
OK, '0' + digit below 10, 'A'..'F' with hex, and no byte otherwise. The control attribute adds a newline. That the front
end takes the response in an act of its own (notes/assumptions/19.md), and that the response stays on the channel
(notes/assumptions/6.md), are the model's choices. -/
def Obligations.ReadAsciiFormatsDigit : Prop :=
  (∀ b : Byte, frontBytes .deviceNode b = [b] ∧ frontBytes .controlAttr b = [b, 0x0A]) ∧
  (∀ (s : State) (c : Nat) (via : FrontEnd) (acts : List Event),
    s.env.events = .readAscii c via :: acts → callerIdle s c = true →
    ∃ t, step s = .next t ∧ s.sameBlock t ∧ t.requests c (.getDigit 0) ∧
      Slots.get c t.front = some (.reading via)) ∧
  ∀ (s : State) (c : Nat) (via : FrontEnd) (st : Status) (info : BitVec 4) (d : Digit) (acts : List Event),
    s.env.events = .collect c :: acts → Slots.get c s.front = some (.reading via) →
    Slots.get c s.rsp = some (rspWord st info d) →
    ∃ t, step s = .next t ∧ s.sameBlock t ∧ t.pending = s.pending ∧ t.rsp = s.rsp ∧
      (st ≠ .ok → Slots.get c t.front = some (.done .error)) ∧
      (st = .ok → d.toNat < 10 →
        Slots.get c t.front = some (.done (.bytes (frontBytes via (BitVec.ofNat 8 (0x30 + d.toNat)))))) ∧
      (st = .ok → 10 ≤ d.toNat → s.params.hexAscii = true →
        Slots.get c t.front = some (.done (.bytes (frontBytes via (BitVec.ofNat 8 (0x41 + (d.toNat - 10))))))) ∧
      (st = .ok → 10 ≤ d.toNat → s.params.hexAscii = false → Slots.get c t.front = some (.done .noByte))

/-- R174: an accepted character written through a front end and then read back by the same caller, with every write OK,
comes back as that character. The acts in which the front end takes a response are the model's choice
(notes/assumptions/19.md). -/
def Obligations.AsciiRoundTrip : Prop :=
  ∀ (s : State) (c : Nat) (b : Byte) (rest : List Byte) (via : FrontEnd) (v : Value) (acts : List Event),
    s.life = .ready → s.seq = none → s.pinsHeld → s.env.failsNothing = true → callerIdle s c = true →
    asciiDigit s.params.hexAscii b = some v →
    s.env.events = .writeAscii c b rest :: (List.replicate (9 + popcount (rom (v.extractLsb' 0 4))) (.serve c) ++
      (.collect c :: .readAscii c via :: .serve c :: .collect c :: acts)) →
    ∃ t, runSteps (14 + popcount (rom (v.extractLsb' 0 4))) s = .next t ∧
      Slots.get c t.front = some (.done (.bytes (frontBytes via b)))

/-! ## Programs as text -/

/-- R81: a well-formed written operation is issued as its canonical word, or as its encoder input. -/
def Obligations.WrittenOperationsAssemble : Prop :=
  opAct .get = .request 0x000#10 ∧ opAct .init = .request 0x200#10 ∧ opAct .shutdown = .request 0x300#10 ∧
  (∀ n, n ≤ 255 → opAct (.set n) = .request (0x100#10 ||| BitVec.ofNat 10 n) ∧ opAct (.encode n) = .encode (BitVec.ofNat 8 n)) ∧
  ∀ (p : Params) (l : Line), l.wellFormed p = true →
    assembleProgram p [.line l] = some [.task { no := 1, caller := l.caller, act := opAct l.op }]

/-- R82: a claim that a directive names fails and uses the directive up; in a test program one that none names is OK. A
write directive is in force wherever it stands in the program, from the first line that is issued on: when a directive
takes hold and is used up is the model's reading (notes/assumptions/18.md). -/
def Obligations.DirectivesFixAnswers : Prop :=
  (∀ (s : State) (c : Nat) (rest : List Event) (t : Task) (no : Nat) (ph : WritePhase) (k : Slot),
    s.env.events = .line c :: rest → callerIdle s c = true → .task t ∈ s.env.program → t.caller = c →
    .directive (.writeFail no ph k) ∈ s.env.program →
    ∃ u, step s = .next u ∧ .writeFail no ph k ∈ u.env.directives) ∧
  ∀ (e : Env) (c no : Nat) (ph : WritePhase) (k : Slot),
    (Directive.claimFail k ∈ e.directives →
      e.takeClaim k = (.fail, { e with directives := e.directives.erase (.claimFail k) })) ∧
    (Directive.claimFail k ∉ e.directives → e.scripted = true → e.takeClaim k = (.ok, e)) ∧
    (Slots.get c e.opNo = some no → Directive.writeFail no ph k ∈ e.directives → (e.takeWrite c ph k).1 = .fail) ∧
    (Slots.get c e.opNo = some no → Directive.writeFail no ph k ∉ e.directives → e.scripted = true →
      e.takeWrite c ph k = (.ok, e)) ∧
    (∀ b rest, e.directives = .draw b :: rest → e.takeDraw = (b, { e with directives := rest }))
end

