-- ==== Sys2Proof/Tests/Slice0.lean ====
section
/-! SUPPORT. The model's own tests: ill-formed terms refused, words written out from the spec's encodings, single steps whose
expected results are the vectors of spec/95_test_vectors.md, and for every statement with hypotheses a concrete state
that meets them. -/

namespace Sys2Proof.Tests

open Sys2Proof Sys2Proof.Machine

/-! ## Ill-formed terms are refused (R9, R10, R81, R82) -/

/-- Two callers, the rest as the reference configuration. -/
def ref : Params := Params.reference 2

theorem test_wf_set_256 : Op.wellFormed (.set 256) = false ∧ Op.wellFormed (.set 255) = true := by decide
theorem test_wf_encode_256 : Op.wellFormed (.encode 256) = false ∧ Op.wellFormed (.encode 255) = true := by decide
theorem test_wf_ascii_256 : Op.wellFormed (.writeAscii 256) = false ∧ Op.wellFormed (.writeAscii 255) = true := by decide
theorem test_wf_absent_caller :
    Line.wellFormed ref { op := .get, caller := 2 } = false ∧ Line.wellFormed ref { op := .get, caller := 1 } = true := by
  decide
theorem test_wf_claim_slot : (SourceItem.claim 7).wellFormed ref = false ∧ (SourceItem.claim 6).wellFormed ref = true := by
  decide
theorem test_wf_write_slot :
    (SourceItem.write 1 .clear 7).wellFormed ref = false ∧ (SourceItem.write 0 .clear 6).wellFormed ref = false ∧
      (SourceItem.write 1 .clear 6).wellFormed ref = true := by decide
theorem test_wf_draw_bit : (SourceItem.draw 2).wellFormed ref = false ∧ (SourceItem.draw 1).wellFormed ref = true := by
  decide
theorem test_wf_canonical :
    (Instr.getDigit 5).canonical = false ∧ (Instr.init 1).canonical = false ∧ (Instr.shutdown 0x80).canonical = false ∧
      (Instr.setDigit 0xFF).canonical = true ∧ (Instr.encode 0xFF).canonical = true := by decide
theorem test_wf_in_assembler : assembleProgram ref [.line { op := .set 256 }] = none := by decide

/-! ## Decoding: words written out bit by bit (R70, R76, R78) -/

theorem test_decode_get : decodeTableWord 16 0b0000000000 = some (.getDigit 0) ∧
    decodeTableWord 16 0b0011111111 = some (.getDigit 0xFF) := by decide
theorem test_decode_set : decodeTableWord 16 0b0100000111 = some (.setDigit 7) ∧
    decodeTableWord 16 0b0100010000 = some (.setDigit 16) := by decide
theorem test_decode_init : decodeTableWord 16 0b1000000000 = some (.init 0) ∧
    decodeTableWord 16 0b1010000000 = some (.init 0x80) := by decide
theorem test_decode_shutdown : decodeTableWord 16 0b1100000000 = some (.shutdown 0) ∧
    decodeTableWord 16 0b1100000001 = some (.shutdown 1) := by decide
theorem test_decode_encode : decodeTableWord 8 0b00001001 = some (.encode 9) ∧
    decodeTableWord 8 0b00110000 = some (.encode 0x30) := by decide
/-- A request has exactly ten bits (R80). -/
theorem test_decode_eleventh_bit : decodeTableWord 16 0b10000000000 = none := by decide
theorem test_decode_wrong_length : decodeBytes .request [0x07] = .error .wrongLength ∧
    decodeBytes .encoder [] = .error .wrongLength ∧ decodeBytes .request [0x07, 0x04] = .error .notTenBits := by
  decide +revert
/-- The canonical words of R78. -/
theorem test_encode_words :
    encode (.getDigit 0) = .request 0b0000000000#10 ∧ encode (.setDigit 12) = .request 0b0100001100#10 ∧
    encode (.init 0) = .request 0b1000000000#10 ∧ encode (.shutdown 0) = .request 0b1100000000#10 ∧
    encode (.encode 9) = .encoder 0b00001001#8 := by decide

/-! ## Program text (R81, R82) -/

theorem test_parse_set : parseLine "c1: SET 0x0C  ; #5".toList = .item (.line { op := .set 12, caller := 1 }) := by decide
theorem test_parse_default_caller : parseLine "INIT".toList = .item (.line { op := .init, caller := 0 }) := by decide
theorem test_parse_write : parseLine ".write 3 SETON 4 FAIL".toList = .item (.write 3 .setOn 4) := by decide
theorem test_parse_bad : parseLine "SET".toList = .malformed ∧ parseLine "  ; only a comment".toList = .blank := by decide
/-- Directives are not numbered (spec/95, section 4). -/
theorem test_assemble_numbers :
    assembleProgram ref [.line { op := .init }, .draw 1, .line { op := .set 2 }] =
      some [.task { no := 1, caller := 0, act := .request 0x200#10 }, .directive (.draw true),
            .task { no := 2, caller := 0, act := .request 0x102#10 }] := by decide

/-! ## Small states -/

/-- A test program's environment: the acts that come next, the directives in force, caller 0 at its third line (R82). -/
def env (es : List Event) (ds : List Directive) : Env :=
  { events := es, program := [], opNo := [(0, 3)], scripted := true, directives := ds,
    cfgPin := #v[17, 18, 27, 22, 23, 24, 25], drawn := 0 }

/-- One entry per slot, written out so that it evaluates. -/
def eachSlot {α : Type} (f : Slot → α) : PerSlot α := #v[f 0, f 1, f 2, f 3, f 4, f 5, f 6]

/-- After reset. -/
def cold (es : List Event) (ds : List Directive) : State := State.resetWith ref (env es ds)

/-- READY and idle, with that digit and those levels. -/
def ready (d : Digit) (out : PerSlot Level) (es : List Event) (ds : List Directive) : State :=
  { cold es ds with
    life := .ready, digit := some d, pinmap := samplePins (env es ds).cfgPin, owned := Vector.replicate 7 true,
    out := eachSlot fun i => some out[i] }

/-- The pins of digit 8 at ACTIVE_LEVEL = 1. -/
def all1 : PerSlot Level := Vector.replicate 7 true

/-- The pins of a blank display at ACTIVE_LEVEL = 1. -/
def all0 : PerSlot Level := Vector.replicate 7 false

/-- s with caller 0's request w outstanding. -/
def asks (w : ReqWord) (s : State) : State := { s with pending := [(0, w)] }

/-- s with caller 0's request w in flight, at phase p and slot k. -/
def flying (w : ReqWord) (p : Phase) (k : Slot) (s : State) : State :=
  { asks w s with seq := some { caller := 0, phase := p, k := slotIndex k } }

/-- An INIT or SHUTDOWN in flight: UNINIT, no digit, those slots owned and inactive, every slot with its pin. -/
def partly (own : PerSlot Bool) (es : List Event) (ds : List Directive) : State :=
  { cold es ds with
    pinmap := samplePins (env es ds).cfgPin, owned := own, out := eachSlot fun i => if own[i] then some false else none }

/-- What a step leaves, where it goes on. -/
def after (r : Result) : Option State :=
  match r with
  | .next t => some t
  | .fault _ => none
  | .refused _ => none

/-- Caller 0's response, the pins, the digit and SYNC of what a step leaves. -/
def seen (r : Result) : Option (Option RspWord × PerSlot (Option Level) × Option Digit × Bool) :=
  (after r).map fun t => (Slots.get 0 t.rsp, t.out, t.digit, t.sync)

/-! ## One step, against the vectors of spec/95 -/

/-- V-SET-2: SET 16 on a READY controller is INVALID_DIGIT and changes nothing. -/
theorem test_step_set_16 :
    seen (step (asks 0x110 (ready 5 #v[true, false, true, true, false, true, true] [.serve 0] []))) =
      some (some 0x100, #v[some true, some false, some true, some true, some false, some true, some true], some 5, false) := by
  decide
/-- V-SET-10: the clear write of slot 0 fails and the pin takes the drawn 1. -/
theorem test_step_set_fails :
    seen (step (flying 0x100 (.clear 0x3F 0) 0 (ready 0 #v[true, true, true, true, true, true, false] [.serve 0]
      [.writeFail 3 .clear 0, .draw true]))) =
      some (some 0x300, #v[some true, some true, some true, some true, some true, some true, some false], some 0, false) := by
  decide
/-- V-IN-3: the claim of slot 0 fails. -/
theorem test_step_init_fails :
    seen (step (flying 0x200 .claim 0 (partly (Vector.replicate 7 false) [.serve 0] [.claimFail 0]))) =
      some (some 0x200, Vector.replicate 7 none, none, false) := by decide
/-- V-IN-7: INIT on a READY controller. -/
theorem test_step_init_ready :
    seen (step (asks 0x200 (ready 0 all0 [.serve 0] []))) = some (some 0x400, Vector.replicate 7 (some false), some 0, false) := by
  decide
/-- V-SD-3: SHUTDOWN after reset is a no-op. -/
theorem test_step_shutdown_uninit :
    seen (step (asks 0x300 (cold [.serve 0] []))) = some (some 0x000, Vector.replicate 7 none, none, false) := by decide
/-- V-SD-4: a failed inactive write is not reported. -/
theorem test_step_shutdown_write_fails :
    seen (step (flying 0x300 .off 3 (partly (Vector.replicate 7 true) [.serve 0] [.writeFail 3 .off 3, .draw true]))) =
      some (none, #v[some false, some false, some false, some true, some false, some false, some false], none, false) := by
  decide
/-- V-GET-1 and V-GET-3. -/
theorem test_step_get :
    (seen (step (asks 0x000 (cold [.serve 0] [])))).map (·.1) = some (some 0x400) ∧
      (seen (step (asks 0x000 (ready 15 all0 [.serve 0] [])))).map (·.1) = some (some 0x00F) := by decide
/-- V-GET-4: the old value while another caller's SET 9 is in flight. -/
theorem test_step_get_during_set :
    (seen (step { flying 0x000 (.setOn 0x67 9) 0 (ready 3 all0 [.serve 0] []) with
      seq := some { caller := 1, phase := .setOn 0x67 9, k := 0 } })).map (·.1) = some (some 0x003) := by decide
/-- The table of section 2.1: 9, and 16, which must not alias 0. -/
theorem test_step_encode :
    (after (step (cold [.encode 9] []))).map (·.encOut) = some (some (.ok 0x67)) ∧
      (after (step (cold [.encode 16] []))).map (·.encOut) = some (some .invalidDigit) := by decide
/-- V-FE-2 and V-FE-5: rejected, and no core operation. -/
theorem test_step_ascii_reject :
    (after (step (cold [.writeAscii 0 0x41 []] []))).map (fun t => (t.front, t.pending)) =
      some ([(0, .done .reject)], []) ∧
    (after (step (cold [.writeAscii 0 0x3A []] []))).map (fun t => (t.front, t.pending)) =
      some ([(0, .done .reject)], []) := by decide
/-- V-FE-7: an attribute read of 3. -/
theorem test_step_ascii_newline :
    (after (step { cold [.collect 0] [] with front := [(0, .reading .controlAttr)], rsp := [(0, 0x003)] })).map (·.front) =
      some [(0, .done (.bytes [0x33, 0x0A]))] := by decide
/-- A program line is issued with its number and the directives before it (R82). -/
theorem test_step_line :
    (after (step { cold [.line 0] [] with
      env := { env [.line 0] [] with
        program := [.directive (.draw true), .task { no := 4, caller := 0, act := .request 0x102 }] } })).map
      (fun t => (t.pending, t.env.directives, t.env.opNo, t.env.program)) =
    some ([(0, 0x102)], [.draw true], [(0, 4)], []) := by decide
/-- A program whose write directive stands after the line it names. -/
def lineThenWrite : State :=
  { cold [] [] with
    env := { env [.line 0] [] with
      program := [.task { no := 1, caller := 0, act := .request 0x103 }, .directive (.writeFail 1 .off 6),
                  .directive (.draw true)] } }
/-- A write directive is in force wherever it stands; a draw directive after the line is not yet (R82). -/
theorem test_step_late_directive :
    (after (step lineThenWrite)).map (fun t => (t.env.directives, t.env.program)) =
      some ([.writeFail 1 .off 6], [.directive (.draw true)]) := by decide
/-- A claim that R56 forces to fail is the next claim of its slot: the directive is used up (R82). -/
theorem test_forced_claim_spends :
    (after (step { flying 0x200 .claim 4 (partly (eachSlot fun i => decide (i < 4)) [.serve 0] [.claimFail 4]) with
      pinmap := #v[some 17, some 18, some 27, some 22, some 18, some 24, some 25] })).map
      (fun t => (t.env.directives, t.seq)) =
    some ([], some { caller := 0, phase := .unwind 4, k := 3 }) := by decide
/-- The host's word runs first after reset: SET 3 answers BAD_STATE (V-SET-1). -/
theorem test_placed_word :
    (seen (step (State.reset.withFetchWord 16 0x103))).map (·.1) = some (some 0x400) := by decide

/-! ## Witnesses: for each statement with hypotheses, states and operands that meet them, clause by clause -/

/-- A READY controller showing 8, with a SET 1 of caller 0 asked for, served n times. -/
def asksSet1 (n : Nat) (ds : List Directive) : State :=
  asks 0x101 (ready 8 all1 (List.replicate n (.serve 0)) ds)

/-- A controller after reset, with an INIT of caller 0 asked for, served n times. -/
def asksInit (n : Nat) (ds : List Directive) : State := asks 0x200 (cold (List.replicate n (.serve 0)) ds)

/-- An INIT claiming slot k, the slots below k owned. -/
def claiming (k : Slot) (ds : List Directive) : State :=
  flying 0x200 .claim k (partly (eachSlot fun i => decide (i < k)) [.serve 0] ds)

/-- An INIT unwinding from slot k. -/
def unwinding (k : Slot) : State :=
  flying 0x200 (.unwind 6) k (partly (eachSlot fun i => decide (i ≤ k)) [.serve 0] [])

/-- A SHUTDOWN releasing slot k. -/
def releasing (k : Slot) : State :=
  flying 0x300 .release k (partly (eachSlot fun i => decide (k ≤ i)) [.serve 0] [])

/-- A SHUTDOWN writing slot k inactive. -/
def darkening (k : Slot) (ds : List Directive) : State :=
  flying 0x300 .off k (partly (Vector.replicate 7 true) [.serve 0] ds)

/-- A SET 8 clearing slot k: the slots below are dark. -/
def clearing (k : Slot) (ds : List Directive) : State :=
  flying 0x108 (.clear 0x7F 8) k (ready 3 (eachSlot fun i => decide (k ≤ i)) [.serve 0] ds)

/-- A SET 8 lighting slot k: the slots below are lit, the others dark. -/
def lighting (k : Slot) (ds : List Directive) : State :=
  flying 0x108 (.setOn 0x7F 8) k (ready 3 (eachSlot fun i => decide (i < k)) [.serve 0] ds)

/-- A SET 8 that has just taken the lock, served 15 times. -/
def justTaken : State := flying 0x108 (.clear 0x7F 8) 0 (ready 3 all1 (List.replicate 15 (.serve 0)) [])

/-- A SET 8 about to commit. -/
def committing : State := flying 0x108 (.commitSet 0x7F 8) 6 (ready 3 all1 [.serve 0] [])

/-- An INIT about to commit. -/
def initCommitting : State := flying 0x200 .commitInit 6 (partly (Vector.replicate 7 true) [.serve 0] [])

theorem test_witness_RequestWordsDecode :
    (0x0FF#10 &&& 0x300#10 = 0x000#10) ∧ (0x100#10 &&& 0x300#10 = 0x100#10) ∧ (0x2FF#10 &&& 0x300#10 = 0x200#10) ∧
      (0x3FF#10 &&& 0x300#10 = 0x300#10) := by decide
theorem test_witness_DecodeOfEncodeIsInstr :
    (Instr.setDigit 0xFF).wellFormed = true ∧ (Instr.encode 0).wellFormed = true := by decide
theorem test_witness_StepRunsDecodedInstr :
    (asksSet1 1 []).env.events = .serve 0 :: [] ∧ Slots.get 0 (asksSet1 1 []).pending = some 0x101 ∧
      (cold [.encode 0xFF] []).env.events = .encode 0xFF :: [] := by decide
theorem test_witness_PlacedWordRunsNext : 0 < 1024 ∧ 1023 < 1024 ∧ 0 < 256 ∧ 255 < 256 := by decide
theorem test_witness_RequestIsIssuedOnce :
    (cold [.request 1 0x3FF] []).env.events = .request 1 0x3FF :: [] ∧ callerIdle (cold [.request 1 0x3FF] []) 1 = true ∧
    (asks 0 (cold [.request 0 0x100] [])).env.events = .request 0 0x100 :: [] ∧
      Slots.get 0 (asks 0 (cold [.request 0 0x100] [])).pending ≠ none := by decide
/-- Each of its three conclusions: nothing, a request issued, a request answered. -/
theorem test_witness_OneResponsePerRequest :
    (∃ t, step (cold [.idle] []) = .next t ∧ (nextEvent (cold [.idle] [])).1 ≠ .reset) ∧
    (∃ t, step (cold [.request 0 0] []) = .next t ∧ (nextEvent (cold [.request 0 0] [])).1 ≠ .reset ∧
      Slots.get 0 t.pending ≠ none) ∧
    ∃ t, step (asks 0 (cold [.serve 0] [])) = .next t ∧ (nextEvent (asks 0 (cold [.serve 0] []))).1 ≠ .reset ∧
      Slots.get 0 t.rsp ≠ none :=
  ⟨⟨_, rfl, by decide⟩, ⟨_, rfl, by decide, by decide⟩, ⟨_, rfl, by decide, by decide⟩⟩
theorem test_witness_ResetAbandonsOperation :
    (flying 0x200 .claim 3 (cold [.reset] [])).env.events = .reset :: [] := by decide
theorem test_witness_EncodeGivesPattern :
    (0x00#8).toNat ≤ 15 ∧ (0x0F#8).toNat ≤ 15 ∧ 15 < (0x10#8).toNat ∧ 15 < (0xFF#8).toNat := by decide
theorem test_witness_EncodeIsOneToOne :
    rom 8 = rom 8 ∧ (∃ t, exec (.encode 15) (cold [] []) = .next t) ∧ ∃ t, exec (.encode 15) committing = .next t :=
  ⟨rfl, ⟨_, rfl⟩, ⟨_, rfl⟩⟩
theorem test_witness_WriteSetsOneSlot :
    (clearing 0 []).pinmap[(0 : Slot)] ≠ none ∧ (clearing 0 []).owned[(0 : Slot)] = true ∧
      (clearing 0 []).env.takeWrite 0 .clear 0 = (.ok, (clearing 0 []).env) ∧
    (lighting 6 [.writeFail 3 .setOn 6]).pinmap[(6 : Slot)] ≠ none ∧
      (lighting 6 [.writeFail 3 .setOn 6]).owned[(6 : Slot)] = true ∧
      (lighting 6 [.writeFail 3 .setOn 6]).env.takeWrite 0 .setOn 6 = (.fail, (lighting 6 []).env) := by decide
/-- A pin taken already, a claim that is granted, and one that is not. -/
theorem test_witness_ClaimOwnsOneSlot :
    ({ claiming 6 [] with pinmap := #v[some 25, none, none, none, none, none, some 25] }).pinmap[(6 : Slot)] = some 25 ∧
      (∃ j : Slot, j ≠ 6 ∧ (claiming 6 []).owned[j] = true ∧
        ({ claiming 6 [] with pinmap := #v[some 25, none, none, none, none, none, some 25] }).pinmap[j] = some 25) ∧
    (claiming 0 []).pinmap[(0 : Slot)] = some 17 ∧
      (∀ j : Slot, j ≠ 0 → (claiming 0 []).owned[j] = true → (claiming 0 []).pinmap[j] ≠ some 17) ∧
      (claiming 0 []).env.takeClaim 0 = (.ok, (claiming 0 []).env) ∧
      (claiming 0 [.claimFail 0]).env.takeClaim 0 = (.fail, (claiming 0 []).env) := by decide
theorem test_witness_ReleaseFreesOneSlot :
    (releasing 0).pinmap[(0 : Slot)] ≠ none ∧ (releasing 0).owned[(0 : Slot)] = true ∧
      (releasing 6).pinmap[(6 : Slot)] ≠ none ∧ (releasing 6).owned[(6 : Slot)] = true := by decide
/-- SEQ.k = 7; and every phase that touches a pin, at slot 0 and slot 6, without a pin and without ownership. -/
theorem test_witness_PinMicroStepsStop :
    (∀ p ∈ [Phase.claim, .unwind 6, .clear 0x7F 8, .setOn 0x7F 8, .off, .release],
      ({ cold [] [] with seq := some { caller := 0, phase := p, k := 7 } }).seq = some { caller := 0, phase := p, k := 7 } ∧
      (0 : Nat) = ({ cold [] [] with seq := some { caller := 0, phase := p, k := 7 } }).active) ∧
    ∀ k ∈ [(0 : Slot), 6], ∀ p ∈ [Phase.claim, .unwind 6, .clear 0x7F 8, .setOn 0x7F 8, .off, .release],
      (flying 0x200 p k (cold [] [])).seq = some { caller := 0, phase := p, k := slotIndex k } ∧
      (0 : Nat) = (flying 0x200 p k (cold [] [])).active ∧ (flying 0x200 p k (cold [] [])).pinmap[k] = none ∧
      (flying 0x200 p k (partly (Vector.replicate 7 false) [] [])).pinmap[k] ≠ none ∧
      (flying 0x200 p k (partly (Vector.replicate 7 false) [] [])).owned[k] = false := by decide
theorem test_witness_GetDigitAnswers :
    (cold [] []).life = .uninit ∧ (ready 15 all0 [] []).life = .ready ∧ (ready 15 all0 [] []).digit = some 15 := by decide
theorem test_witness_GetDigitOfNoneStops :
    ({ cold [] [] with life := .ready }).life = .ready ∧ ({ cold [] [] with life := .ready }).digit = none := by decide
theorem test_witness_SetDigitAcquires :
    (cold [] []).seq = none ∧ (cold [] []).life = .uninit ∧ (ready 8 all1 [] []).seq = none ∧
      (ready 8 all1 [] []).life = .ready ∧ 15 < (16#8).toNat ∧ 15 < (255#8).toNat ∧ (0#8).toNat ≤ 15 ∧
      (15#8).toNat ≤ 15 := by decide
/-- Slot 0, slot 6 with a pattern, and slot 6 with the empty pattern that no ROM entry is. -/
theorem test_witness_SetDigitClears :
    (∀ k : Slot, (clearing k []).seq = some { caller := 0, phase := .clear 0x7F 8, k := slotIndex k } ∧
      0 = (clearing k []).active ∧ (clearing k []).pinmap[k] ≠ none ∧ (clearing k []).owned[k] = true ∧
      (clearing k []).env.takeWrite 0 .clear k = (.ok, (clearing k []).env)) ∧
    (1 : Slot).val = (0 : Slot).val + 1 ∧ segBit 0x7F 0 = true ∧ (∀ i : Slot, i < 0 → segBit 0x7F i = false) ∧
    (flying 0x108 (.clear 0 8) 6 (clearing 6 [])).seq = some { caller := 0, phase := .clear 0 8, k := 6 } := by decide
theorem test_witness_SetDigitLights :
    (∀ k : Slot, (lighting k []).seq = some { caller := 0, phase := .setOn 0x7F 8, k := slotIndex k } ∧
      0 = (lighting k []).active ∧ (lighting k []).pinmap[k] ≠ none ∧ (lighting k []).owned[k] = true ∧
      (lighting k []).env.takeWrite 0 .setOn k = (.ok, (lighting k []).env)) ∧
    (segBit 0x7F 1 = true ∧ ∀ i : Slot, 0 < i → i < 1 → segBit 0x7F i = false) ∧
    ∀ i : Slot, 6 < i → segBit 0x7F i = false := by decide
theorem test_witness_SetDigitWriteFails :
    ∀ k ∈ [(0 : Slot), 6],
      (clearing k [.writeFail 3 .clear k]).seq = some { caller := 0, phase := .clear 0x7F 8, k := slotIndex k } ∧
      0 = (clearing k [.writeFail 3 .clear k]).active ∧ (clearing k [.writeFail 3 .clear k]).pinmap[k] ≠ none ∧
      (clearing k [.writeFail 3 .clear k]).owned[k] = true ∧
      (clearing k [.writeFail 3 .clear k]).env.takeWrite 0 .clear k = (.fail, (clearing k []).env) ∧
      (lighting k [.writeFail 3 .setOn k]).seq = some { caller := 0, phase := .setOn 0x7F 8, k := slotIndex k } ∧
      0 = (lighting k [.writeFail 3 .setOn k]).active ∧ (lighting k [.writeFail 3 .setOn k]).pinmap[k] ≠ none ∧
      (lighting k [.writeFail 3 .setOn k]).owned[k] = true ∧
      (lighting k [.writeFail 3 .setOn k]).env.takeWrite 0 .setOn k = (.fail, (lighting k []).env) := by decide
theorem test_witness_SetDigitCommits :
    committing.seq = some { caller := 0, phase := .commitSet 0x7F 8, k := 6 } ∧ 0 = committing.active := by decide
/-- An acquisition, a clear write, a commit, and a wait behind another caller. -/
theorem test_witness_SetDigitFrame :
    (∃ t, exec (.setDigit 1) (asksSet1 0 []) = .next t) ∧ (∃ t, exec (.setDigit 8) (clearing 6 []) = .next t) ∧
    (∃ t, exec (.setDigit 8) committing = .next t) ∧ (∃ t, exec (.setDigit 8) { committing with active := 1 } = .next t) ∧
    (clearing 6 []).pinTarget = some 6 ∧ committing.pinTarget = none :=
  ⟨⟨_, rfl⟩, ⟨_, rfl⟩, ⟨_, rfl⟩, ⟨_, rfl⟩, rfl, rfl⟩
/-- The two acquisitions, and steps that write PINMAP: INIT's and a reset. -/
theorem test_witness_InitAcquires :
    ((ready 8 all1 [] []).seq = none ∧ (ready 8 all1 [] []).life = .ready) ∧
    ((cold [] []).seq = none ∧ (cold [] []).life = .uninit) ∧
    (∃ t, step (asksInit 1 []) = .next t ∧ t.pinmap ≠ (asksInit 1 []).pinmap) ∧
    ∃ t, step (ready 8 all1 [.reset] []) = .next t ∧ t.pinmap ≠ (ready 8 all1 [.reset] []).pinmap :=
  ⟨by decide, by decide, ⟨_, rfl, by decide⟩, ⟨_, rfl, by decide⟩⟩
theorem test_witness_InitClaims :
    ∀ k : Slot, (claiming k []).seq = some { caller := 0, phase := .claim, k := slotIndex k } ∧ 0 = (claiming k []).active ∧
      (claiming k []).pinmap[k] = some (claiming k []).env.cfgPin[k] ∧
      (∀ j : Slot, j ≠ k → (claiming k []).owned[j] = true →
        (claiming k []).pinmap[j] ≠ some (claiming k []).env.cfgPin[k]) ∧
      (claiming k []).env.takeClaim k = (.ok, (claiming k []).env) := by decide
/-- Slot 0 by a directive, slot 6 because slot 0 owns its pin. -/
theorem test_witness_InitClaimFails :
    ((claiming 0 [.claimFail 0]).pinmap[(0 : Slot)] = some 17 ∧
      (∀ j : Slot, j ≠ 0 → (claiming 0 [.claimFail 0]).owned[j] = true →
        (claiming 0 [.claimFail 0]).pinmap[j] ≠ some 17) ∧
      (claiming 0 [.claimFail 0]).env.takeClaim 0 = (.fail, (claiming 0 []).env)) ∧
    (({ claiming 6 [] with pinmap := Vector.replicate 7 (some 9) }).pinmap[(6 : Slot)] = some 9 ∧
      ∃ j : Slot, j ≠ 6 ∧ (claiming 6 []).owned[j] = true ∧
        ({ claiming 6 [] with pinmap := Vector.replicate 7 (some 9) }).pinmap[j] = some 9) ∧
    (6 : Slot).val = (5 : Slot).val + 1 := by decide
theorem test_witness_InitUnwinds :
    ∀ k ∈ [(0 : Slot), 5], (unwinding k).seq = some { caller := 0, phase := .unwind 6, k := slotIndex k } ∧
      0 = (unwinding k).active ∧ (unwinding k).pinmap[k] ≠ none ∧ (unwinding k).owned[k] = true := by decide
/-- An acquisition, a claim, an unwinding release, a commit. -/
theorem test_witness_InitFrame :
    (∃ t, exec (.init 0) (asksInit 0 []) = .next t) ∧ (∃ t, exec (.init 0) (claiming 6 []) = .next t) ∧
    (∃ t, exec (.init 0) (unwinding 5) = .next t) ∧ (∃ t, exec (.init 0) initCommitting = .next t) ∧
    (claiming 6 []).pinTarget = some 6 ∧ (unwinding 5).pinTarget = some 5 ∧ initCommitting.pinTarget = none :=
  ⟨⟨_, rfl⟩, ⟨_, rfl⟩, ⟨_, rfl⟩, ⟨_, rfl⟩, rfl, rfl, rfl⟩
theorem test_witness_ShutdownAcquires :
    (cold [] []).seq = none ∧ (cold [] []).life = .uninit ∧ (ready 8 all1 [] []).seq = none ∧
      (ready 8 all1 [] []).life = .ready := by decide
theorem test_witness_ShutdownWritesInactive :
    ∀ k ∈ [(0 : Slot), 6],
      (darkening k []).seq = some { caller := 0, phase := .off, k := slotIndex k } ∧ 0 = (darkening k []).active ∧
      (darkening k []).pinmap[k] ≠ none ∧ (darkening k []).owned[k] = true ∧
      (darkening k []).env.takeWrite 0 .off k = (.ok, (darkening k []).env) ∧
      (darkening k [.writeFail 3 .off k]).env.takeWrite 0 .off k = (.fail, (darkening k []).env) := by decide
theorem test_witness_ShutdownReleases :
    ∀ k : Slot, (releasing k).seq = some { caller := 0, phase := .release, k := slotIndex k } ∧ 0 = (releasing k).active ∧
      (releasing k).pinmap[k] ≠ none ∧ (releasing k).owned[k] = true := by decide
theorem test_witness_ShutdownFrame :
    (∃ t, exec (.shutdown 0) (ready 8 all1 [] []) = .next t) ∧ (∃ t, exec (.shutdown 0) (darkening 6 []) = .next t) ∧
    (∃ t, exec (.shutdown 0) (releasing 6) = .next t) ∧ (releasing 6).pinTarget = some 6 :=
  ⟨⟨_, rfl⟩, ⟨_, rfl⟩, ⟨_, rfl⟩, rfl⟩
theorem test_witness_LockHeldRequestsWait :
    ({ committing with active := 1 }).seq = some { caller := 0, phase := .commitSet 0x7F 8, k := 6 } ∧
      0 ≠ ({ committing with active := 1 }).active := by decide
/-- Caller 1 asks while caller 0 holds the lock. -/
theorem test_witness_LockKeepsOthersOut :
    ∃ t, step (flying 0x108 (.clear 0x7F 8) 0 (ready 3 all0 [.request 1 0x200] [])) = .next t ∧
      (nextEvent (flying 0x108 (.clear 0x7F 8) 0 (ready 3 all0 [.request 1 0x200] []))).1 ≠ .serve 0 ∧
      (nextEvent (flying 0x108 (.clear 0x7F 8) 0 (ready 3 all0 [.request 1 0x200] []))).1 ≠ .reset :=
  ⟨_, rfl, by decide, by decide⟩
/-- SET 1 of a READY controller, and SET 0 and SET 15. -/
theorem test_witness_SetDigitRunsToCommit :
    (asksSet1 11 []).life = .ready ∧ (asksSet1 11 []).seq = none ∧ (asksSet1 11 []).pinsHeld ∧
      (asksSet1 11 []).requests 0 (.setDigit 1) ∧ (1#8).toNat ≤ 15 ∧ (asksSet1 11 []).env.failsNothing = true ∧
      (asksSet1 11 []).servesNext 0 (9 + popcount (rom 1)) ∧
    (asks 0x100 (asksSet1 15 [])).requests 0 (.setDigit 0) ∧
      (asks 0x100 (asksSet1 15 [])).servesNext 0 (9 + popcount (rom 0)) ∧
    (asks 0x10F (asksSet1 13 [])).requests 0 (.setDigit 15) ∧
      (asks 0x10F (asksSet1 13 [])).servesNext 0 (9 + popcount (rom 15)) :=
  ⟨by decide, by decide, by unfold State.pinsHeld; decide, ⟨_, rfl, by decide⟩, by decide, by decide, ⟨[], by decide⟩,
   ⟨_, rfl, by decide⟩, ⟨[], by decide⟩, ⟨_, rfl, by decide⟩, ⟨[], by decide⟩⟩
theorem test_witness_SetDigitNeverMixes :
    (asksSet1 9 []).life = .ready ∧ (asksSet1 9 []).seq = none ∧ (asksSet1 9 []).pinsHeld ∧
      (asksSet1 9 []).requests 0 (.setDigit 1) ∧ (1#8).toNat ≤ 15 ∧ (asksSet1 9 []).env.failsNothing = true ∧
      9 ≤ 9 + popcount (rom 1) ∧ (asksSet1 9 []).servesNext 0 9 ∧ (asksSet1 9 []).servesNext 0 0 :=
  ⟨by decide, by decide, by unfold State.pinsHeld; decide, ⟨_, rfl, by decide⟩, by decide, by decide, by decide,
   ⟨[], by decide⟩, ⟨_, rfl⟩⟩
/-- SET 1 of a READY controller showing 8; slot 0 fails at once, slot 6 after six clear writes. -/
theorem test_witness_SetDigitFailsWhileClearing :
    (∃ u, (asksSet1 2 [.writeFail 3 .clear 0]).servesNext 0 2 ∧
      runSteps 1 (asksSet1 2 [.writeFail 3 .clear 0]) = .next u ∧ u.seq ≠ none ∧
      (u.env.takeWrite 0 .clear 0).1 = .fail) ∧
    (∃ u, (asksSet1 8 [.writeFail 3 .clear 6]).servesNext 0 8 ∧
      runSteps 7 (asksSet1 8 [.writeFail 3 .clear 6]) = .next u ∧ u.seq ≠ none ∧
      (u.env.takeWrite 0 .clear 6).1 = .fail) ∧
    (asksSet1 8 []).life = .ready ∧ (asksSet1 8 []).seq = none ∧ (asksSet1 8 []).pinsHeld ∧
      (asksSet1 8 []).requests 0 (.setDigit 1) ∧ (1#8).toNat ≤ 15 :=
  ⟨⟨_, ⟨[], by decide⟩, rfl, by decide, by decide⟩, ⟨_, ⟨[], by decide⟩, rfl, by decide, by decide⟩, rfl, rfl,
   by unfold State.pinsHeld; decide, ⟨_, rfl, by decide⟩, by decide⟩
/-- SET 8 lights slot 0 first; SET 4 lights slots 1, 2 and 5, then slot 6. -/
theorem test_witness_SetDigitFailsWhileLighting :
    (∃ u, (asks 0x108 (asksSet1 9 [.writeFail 3 .setOn 0])).servesNext 0 9 ∧
      runSteps 8 (asks 0x108 (asksSet1 9 [.writeFail 3 .setOn 0])) = .next u ∧ u.seq ≠ none ∧
      (u.env.takeWrite 0 .setOn 0).1 = .fail) ∧
    (∃ u, (asks 0x104 (asksSet1 12 [.writeFail 3 .setOn 6])).servesNext 0 12 ∧
      runSteps 11 (asks 0x104 (asksSet1 12 [.writeFail 3 .setOn 6])) = .next u ∧ u.seq ≠ none ∧
      (u.env.takeWrite 0 .setOn 6).1 = .fail) ∧
    segBit (rom 8) 0 = true ∧ 8 = 8 + allSlots.countP (fun j => decide (j < 0) && segBit (rom 8) j) ∧
    segBit (rom 4) 6 = true ∧ 11 = 8 + allSlots.countP (fun j => decide (j < 6) && segBit (rom 4) j) ∧
    (asks 0x104 (asksSet1 12 [])).life = .ready ∧ (asks 0x104 (asksSet1 12 [])).seq = none ∧
      (asks 0x104 (asksSet1 12 [])).pinsHeld ∧ (asks 0x104 (asksSet1 12 [])).requests 0 (.setDigit 4) ∧
      (asks 0x108 (asksSet1 9 [])).requests 0 (.setDigit 8) ∧ (8#8).toNat ≤ 15 :=
  ⟨⟨_, ⟨[], by decide⟩, rfl, by decide, by decide⟩, ⟨_, ⟨[], by decide⟩, rfl, by decide, by decide⟩, by decide,
   by decide, by decide, by decide, rfl, rfl, by unfold State.pinsHeld; decide, ⟨_, rfl, by decide⟩,
   ⟨_, rfl, by decide⟩, by decide⟩
theorem test_witness_InitRunsToReady :
    (asksInit 9 []).life = .uninit ∧ (asksInit 9 []).seq = none ∧ (∀ i : Slot, (asksInit 9 []).owned[i] = false) ∧
      (asksInit 9 []).requests 0 (.init 0) ∧
      (∀ i j : Slot, i ≠ j → (asksInit 9 []).env.cfgPin[i] ≠ (asksInit 9 []).env.cfgPin[j]) ∧
      (asksInit 9 []).env.failsNothing = true ∧ (asksInit 9 []).servesNext 0 9 :=
  ⟨by decide, by decide, by decide, ⟨_, rfl, by decide⟩, by decide, by decide, ⟨[], by decide⟩⟩
/-- Slot 0 and slot 6 by a directive (V-IN-3, V-IN-5). -/
theorem test_witness_InitFailureReleasesAll :
    ∀ k ∈ [(0 : Slot), 6],
      (asksInit (2 + 2 * k.val) [.claimFail k]).life = .uninit ∧
      (asksInit (2 + 2 * k.val) [.claimFail k]).seq = none ∧
      (∀ i : Slot, (asksInit (2 + 2 * k.val) [.claimFail k]).owned[i] = false ∧
        (asksInit (2 + 2 * k.val) [.claimFail k]).out[i] = none) ∧
      (asksInit (2 + 2 * k.val) [.claimFail k]).requests 0 (.init 0) ∧
      (asksInit (2 + 2 * k.val) [.claimFail k]).env.scripted = true ∧
      (asksInit (2 + 2 * k.val) [.claimFail k]).claimWillFail k ∧
      (∀ j : Slot, j < k → ¬ (asksInit (2 + 2 * k.val) [.claimFail k]).claimWillFail j) ∧
      (asksInit (2 + 2 * k.val) [.claimFail k]).servesNext 0 (2 + 2 * k.val) := by
  intro k hk
  refine ⟨rfl, rfl, ?_, ⟨_, rfl, by decide⟩, rfl, .inl (List.mem_singleton.mpr rfl), ?_,
    ⟨[], (List.append_nil _).symm⟩⟩
  · decide +revert
  · unfold State.claimWillFail; revert k; decide
/-- A duplicate pin at slot 4 (V-IN-6). -/
theorem test_witness_InitFailure_duplicate :
    (asksInit 10 []).env.directives = [] ∧
    ({ asksInit 10 [] with env := { (asksInit 10 []).env with cfgPin := #v[17, 18, 27, 22, 18, 24, 25] } } : State).claimWillFail 4 ∧
    ∀ j : Slot, j < 4 → ¬ ({ asksInit 10 [] with
      env := { (asksInit 10 []).env with cfgPin := #v[17, 18, 27, 22, 18, 24, 25] } } : State).claimWillFail j := by
  unfold State.claimWillFail; decide
theorem test_witness_ShutdownRunsToUninit :
    (asks 0x300 (asksSet1 15 [])).life = .ready ∧ (asks 0x300 (asksSet1 15 [])).seq = none ∧
      (asks 0x300 (asksSet1 15 [])).pinsHeld ∧ (asks 0x300 (asksSet1 15 [])).requests 0 (.shutdown 0) ∧
      (asks 0x300 (asksSet1 15 [])).servesNext 0 15 :=
  ⟨by decide, by decide, by unfold State.pinsHeld; decide, ⟨_, rfl, by decide⟩, ⟨[], by decide⟩⟩

/-- A state with one request, in flight, is sound when its own parts are. -/
theorem inv_of_flight {s : State} {w : ReqWord} {r : SeqRec} (hpend : s.pending = [(0, w)]) (hrsp : s.rsp = [])
    (hfront : s.front = []) (hop : s.env.opNo = [(0, 3)]) (hseq : s.seq = some r) (hc : r.caller = 0)
    (hk : requestKind w = some r.kind) (hk7 : r.k.val < 7) (hph : s.phaseSound r) (hsync : s.sync = false)
    (h1 : s.ownedIffDriven) (h2 : s.readyIffDigit) (h3 : s.life = .ready → ∀ i : Slot, s.owned[i] = true)
    (h4 : ∀ i : Slot, s.pinmap[i] ≠ none) (h5 : ∀ i j : Slot, i ≠ j → s.pinmap[i] ≠ s.pinmap[j]) : s.Inv where
  r41 := ⟨h1, h2, fun hl _ => h3 hl, fun _ h => by simp [hseq] at h, fun h => by simp [hsync] at h,
    fun q hq => by rw [hseq] at hq; cases hq; simp [hpend, hc, Slots.get]⟩
  seqSound q hq := by rw [hseq] at hq; cases hq; exact ⟨hph, w, by simp [hpend, hc, Slots.get], hk⟩
  seqSlot q hq := by rw [hseq] at hq; cases hq; exact hk7
  initMapped _ _ _ := h4
  ownedMapped i _ := h4 i
  ownedDistinct i j hij _ _ := h5 i j hij
  pendingCallers c x hx := by
    rw [hpend] at hx
    simp only [Slots.get] at hx
    split at hx
    · rename_i h; subst h; rfl
    · cases hx
  oneAnswer c _ := by simp [hrsp]
  rspLegal c x hx := by simp [hrsp] at hx
  pendingWf := by rw [hpend]; rfl
  rspWf := by rw [hrsp]; rfl
  frontWf := by rw [hfront]; rfl
  opNoWf := by rw [hop]; rfl

theorem test_inv_clearing : (clearing 3 []).Inv :=
  inv_of_flight rfl rfl rfl rfl rfl rfl (by decide) (by decide) ⟨rfl, by decide, by decide⟩ rfl
    (by unfold State.ownedIffDriven; decide) ⟨fun _ => by decide, fun _ => rfl⟩ (fun _ => by decide) (by decide) (by decide)
theorem test_inv_justTaken : justTaken.Inv :=
  inv_of_flight rfl rfl rfl rfl rfl rfl (by decide) (by decide) ⟨rfl, by decide, by decide⟩ rfl
    (by unfold State.ownedIffDriven; decide) ⟨fun _ => by decide, fun _ => rfl⟩ (fun _ => by decide) (by decide) (by decide)
theorem test_inv_committing : committing.Inv :=
  inv_of_flight rfl rfl rfl rfl rfl rfl (by decide) (by decide) ⟨rfl, by decide, by unfold State.drives; decide⟩ rfl
    (by unfold State.ownedIffDriven; decide) ⟨fun _ => by decide, fun _ => rfl⟩ (fun _ => by decide) (by decide) (by decide)
theorem test_inv_initCommitting : initCommitting.Inv :=
  inv_of_flight rfl rfl rfl rfl rfl rfl (by decide) (by decide) ⟨rfl, by decide⟩ rfl (by unfold State.ownedIffDriven; decide)
    ⟨fun h => (by cases h), fun h => absurd rfl h⟩ (fun h => by cases h) (by decide) (by decide)

theorem test_witness_SetDigitCommitShowsDigit :
    committing.Inv ∧ committing.seq = some { caller := 0, phase := .commitSet 0x7F 8, k := 6 } ∧ 0 = committing.active ∧
      ∃ t, exec (.setDigit 8) committing = .next t := ⟨test_inv_committing, rfl, rfl, ⟨_, rfl⟩⟩
theorem test_witness_InitCommits :
    initCommitting.seq = some { caller := 0, phase := .commitInit, k := 6 } ∧ 0 = initCommitting.active ∧
      initCommitting.Inv := ⟨rfl, rfl, test_inv_initCommitting⟩
/-- Its last micro-step, and a SET 8 that has just taken the lock, with all 15 still to come. -/
theorem test_witness_LockReleasedInTime :
    committing.Inv ∧ committing.seq = some { caller := 0, phase := .commitSet 0x7F 8, k := 6 } ∧
      committing.servesNext 0 1 ∧
    justTaken.Inv ∧ justTaken.seq = some { caller := 0, phase := .clear 0x7F 8, k := 0 } ∧ justTaken.servesNext 0 15 :=
  ⟨test_inv_committing, rfl, ⟨[], rfl⟩, test_inv_justTaken, rfl, ⟨[], rfl⟩⟩
theorem test_witness_StepKeepsInvariant : (clearing 3 []).Inv ∧ ∃ t, step (clearing 3 []) = .next t :=
  ⟨test_inv_clearing, ⟨_, rfl⟩⟩
theorem test_witness_SoundStatesNeverStop : (clearing 3 []).Inv := test_inv_clearing
theorem test_witness_ReachableStatesKeepR41 :
    Slots.wf (env [.request 0 0x200] []).opNo = true ∧
      ∃ t, runSteps 1 (State.resetWith ref (env [.request 0 0x200] [])) = .next t ∧ t.pending = [(0, 0x200)] :=
  ⟨by decide, ⟨_, rfl, by decide⟩⟩
/-- Each of the three writers. -/
theorem test_witness_DigitHasThreeWriters :
    (∃ t, step initCommitting = .next t ∧ t.digit ≠ initCommitting.digit ∧ (nextEvent initCommitting).1 ≠ .reset) ∧
    (∃ t, step committing = .next t ∧ t.digit ≠ committing.digit ∧ (nextEvent committing).1 ≠ .reset) ∧
    ∃ t, step (asks 0x300 (asksSet1 1 [])) = .next t ∧ t.digit ≠ (asks 0x300 (asksSet1 1 [])).digit ∧
      (nextEvent (asks 0x300 (asksSet1 1 []))).1 ≠ .reset :=
  ⟨⟨_, rfl, by decide, by decide⟩, ⟨_, rfl, by decide, by decide⟩, ⟨_, rfl, by decide, by decide⟩⟩
theorem test_witness_ParametersNeverChange :
    (∃ t, step (clearing 3 []) = .next t ∧ ∀ p, (nextEvent (clearing 3 [])).1 ≠ .cfgPins p) ∧
    (nextEvent (ready 8 all1 [.cfgPins (Vector.replicate 7 9)] [])).1 = .cfgPins (Vector.replicate 7 9) ∧
    (ready 8 all1 [.cfgPins (Vector.replicate 7 9)] []).env.events = [.cfgPins (Vector.replicate 7 9)] :=
  ⟨⟨_, rfl, fun p h => by cases h⟩, rfl, rfl⟩
/-- The bytes at the ends of each range; hex accepted and not. -/
theorem test_witness_WriteAsciiIssuesSetDigit :
    (cold [.writeAscii 0 0x39 [0x0A]] []).env.events = .writeAscii 0 0x39 [0x0A] :: [] ∧
      callerIdle (cold [.writeAscii 0 0x39 [0x0A]] []) 0 = true ∧ 0x30 ≤ (0x30#8).toNat ∧ (0x39#8).toNat ≤ 0x39 ∧
      ({ cold [] [] with params := { ref with hexAscii := true } }).params.hexAscii = true ∧
      0x41 ≤ (0x41#8).toNat ∧ (0x46#8).toNat ≤ 0x46 ∧
    Slots.get 0 ({ cold [.collect 0] [] with front := [(0, .writing)], rsp := [(0, rspWord .badState 0 0)] }).front =
        some .writing ∧
      Slots.get 0 ({ cold [.collect 0] [] with front := [(0, .writing)], rsp := [(0, rspWord .badState 0 0)] }).rsp =
        some (rspWord .badState 0 0) ∧
    ∀ b ∈ [0x2F#8, 0x3A#8, 0x40#8, 0x47#8, 0x61#8],
      ¬ (0x30 ≤ b.toNat ∧ b.toNat ≤ 0x39) ∧ ¬ (0x41 ≤ b.toNat ∧ b.toNat ≤ 0x46) := by decide
theorem test_witness_ReadAsciiFormatsDigit :
    (cold [.readAscii 1 .controlAttr] []).env.events = .readAscii 1 .controlAttr :: [] ∧
      callerIdle (cold [.readAscii 1 .controlAttr] []) 1 = true ∧
    ({ cold [.collect 0] [] with front := [(0, .reading .deviceNode)], rsp := [(0, rspWord .ok 0 9)] }).env.events =
        .collect 0 :: [] ∧
      Slots.get 0 ({ cold [.collect 0] [] with
        front := [(0, .reading .deviceNode)], rsp := [(0, rspWord .ok 0 9)] }).front = some (.reading .deviceNode) ∧
      Slots.get 0 ({ cold [.collect 0] [] with
        front := [(0, .reading .deviceNode)], rsp := [(0, rspWord .ok 0 9)] }).rsp = some (rspWord .ok 0 9) ∧
      (9#4).toNat < 10 ∧ 10 ≤ (10#4).toNat ∧ Status.badState ≠ .ok ∧ ref.hexAscii = false ∧
      ({ ref with hexAscii := true }).hexAscii = true := by decide
/-- '7' is accepted; its SET_DIGIT takes 12 micro-steps (R148, R174). -/
theorem test_witness_AsciiRoundTrip :
    let s := ready 8 all1 (.writeAscii 0 0x37 [] :: (List.replicate 12 (.serve 0) ++
      [.collect 0, .readAscii 0 .deviceNode, .serve 0, .collect 0])) []
    s.life = .ready ∧ s.seq = none ∧ (∀ i : Slot, s.owned[i] = true ∧ s.pinmap[i] ≠ none) ∧
      s.env.failsNothing = true ∧ callerIdle s 0 = true ∧ asciiDigit s.params.hexAscii 0x37 = some 7 ∧
      9 + popcount (rom 7) = 12 := by decide
theorem test_witness_WrittenOperationsAssemble :
    0 ≤ 255 ∧ 255 ≤ 255 ∧ ({ op := .set 255, caller := 1 } : Line).wellFormed ref = true := by decide
/-- The write directive stands after caller 0's line; the rest clause by clause. -/
theorem test_witness_DirectivesFixAnswers :
    (lineThenWrite.env.events = .line 0 :: [] ∧ callerIdle lineThenWrite 0 = true ∧
      Item.task { no := 1, caller := 0, act := .request 0x103 } ∈ lineThenWrite.env.program ∧
      Item.directive (.writeFail 1 .off 6) ∈ lineThenWrite.env.program) ∧
    Directive.claimFail 6 ∈ (env [] [.claimFail 6]).directives ∧ Directive.claimFail 0 ∉ (env [] [.claimFail 6]).directives ∧
      (env [] [.claimFail 6]).scripted = true ∧ Slots.get 0 (env [] []).opNo = some 3 ∧
      Directive.writeFail 3 .off 6 ∈ (env [] [.writeFail 3 .off 6]).directives ∧
      Directive.writeFail 3 .off 0 ∉ (env [] [.writeFail 3 .off 6]).directives ∧
      (env [] [.draw true]).directives = .draw true :: [] := by decide

end Sys2Proof.Tests
end

section
/-! SUPPORT. R41 along every run. State.Inv is cut at the lock into what holds while it is free (State.Idle) and what holds
while an operation has it (State.Busy). Neither speaks of SEQ, so a micro-step that frees, takes or keeps the lock is one
that leads to an Idle or a Busy state. -/

namespace Sys2Proof.Machine

open Sys2Proof

/-! ### The parts of a sound state, each over the components it speaks of -/

/-- The pins' own consistency (R41.1, R24, R23). -/
structure PinsSound (pinmap : PerSlot (Option PinId)) (owned : PerSlot Bool) (out : PerSlot (Option Level)) : Prop where
  driven   : ∀ i : Slot, owned[i] = false ↔ out[i] = none
  mapped   : ∀ i : Slot, owned[i] = true → pinmap[i] ≠ none
  distinct : ∀ i j : Slot, i ≠ j → owned[i] = true → owned[j] = true → pinmap[i] ≠ pinmap[j]

section Pins

variable {pinmap : PerSlot (Option PinId)} {owned : PerSlot Bool} {out : PerSlot (Option Level)} {k : Slot}

theorem PinsSound.of_unowned (ho : ∀ i : Slot, owned[i] = false) (hd : ∀ i : Slot, out[i] = none) :
    PinsSound pinmap owned out where
  driven i := by simp only [ho i, hd i]
  mapped i h := by rw [ho i] at h; cases h
  distinct i _ _ h := by rw [ho i] at h; cases h

theorem PinsSound.write (h : PinsSound pinmap owned out) (hk : owned[k] = true) (l : Level) :
    PinsSound pinmap owned (out.set k (some l)) where
  driven i := by
    rw [slot_get_set]
    split
    · next hki => subst hki; simp only [hk, reduceCtorEq]
    · exact h.driven i
  mapped := h.mapped
  distinct := h.distinct

theorem PinsSound.claim {p : PinId} (h : PinsSound pinmap owned out) (hk : pinmap[k] = some p)
    (hfree : ∀ j : Slot, j ≠ k → owned[j] = true → pinmap[j] ≠ some p) (l : Level) :
    PinsSound pinmap (owned.set k true) (out.set k (some l)) where
  driven i := by
    rw [slot_get_set, slot_get_set]
    split
    · simp only [reduceCtorEq]
    · exact h.driven i
  mapped i hi := by
    rw [slot_get_set] at hi
    split at hi
    · next hki => subst hki; rw [hk]; simp
    · exact h.mapped i hi
  distinct i j hij hi hj := by
    rw [slot_get_set] at hi hj
    by_cases hik : k = i
    · subst hik
      rw [if_neg hij] at hj
      rw [hk]
      exact (hfree j (Ne.symm hij) hj).symm
    · rw [if_neg hik] at hi
      split at hj
      · next hjk => subst hjk; rw [hk]; exact hfree i hij hi
      · exact h.distinct i j hij hi hj

theorem PinsSound.release (h : PinsSound pinmap owned out) (k : Slot) :
    PinsSound pinmap (owned.set k false) (out.set k none) := by
  have keeps : ∀ i : Slot, (owned.set k false)[i] = true → owned[i] = true := by
    intro i hi
    rw [slot_get_set] at hi
    split at hi
    · cases hi
    · exact hi
  constructor
  case driven =>
    intro i
    rw [slot_get_set, slot_get_set]
    split
    · simp only
    · exact h.driven i
  case mapped => exact fun i hi => h.mapped i (keeps i hi)
  case distinct => exact fun i j hij hi hj => h.distinct i j hij (keeps i hi) (keeps j hj)

end Pins

/-- The channels' own consistency (R10, R11, R29, R79). -/
structure ChannelsSound (p : Params) (pending : Slots ReqWord) (rsp : Slots RspWord) : Prop where
  callers   : ∀ c w, Slots.get c pending = some w → p.hasCaller c = true
  oneAnswer : ∀ c, Slots.get c pending ≠ none → Slots.get c rsp = none
  legal     : ∀ c w, Slots.get c rsp = some w → Status.ofCode (rspStatus w) ≠ none
  pendingWf : Slots.wf pending = true
  rspWf     : Slots.wf rsp = true

/-- A response word carries the status it was made with (R72). -/
theorem rspStatus_rspWord (st : Status) (info : BitVec 4) (d : Digit) : rspStatus (rspWord st info d) = st.code := by
  unfold rspStatus rspWord
  ext i hi
  simp only [← BitVec.getLsbD_eq_getElem, BitVec.getLsbD_append, BitVec.getLsbD_extractLsb']
  interval_cases i <;> simp

theorem Status.ofCode_code (st : Status) : Status.ofCode st.code = some st := by cases st <;> rfl

theorem ChannelsSound.respond {p : Params} {pending : Slots ReqWord} {rsp : Slots RspWord}
    (h : ChannelsSound p pending rsp) (c : Nat) (st : Status) (info : BitVec 4) (d : Digit) :
    ChannelsSound p (Slots.erase c pending) (Slots.set c (rspWord st info d) rsp) where
  callers b w hb := by
    rw [Slots.get_erase] at hb
    split at hb
    · cases hb
    · exact h.callers b w hb
  oneAnswer b hb := by
    rw [Slots.get_erase] at hb
    rw [Slots.get_set]
    split
    · next hbc => exact absurd (if_pos hbc) hb
    · next hbc => exact h.oneAnswer b (by rwa [if_neg hbc] at hb)
  legal b w hb := by
    rw [Slots.get_set] at hb
    split at hb
    · cases hb; rw [rspStatus_rspWord, Status.ofCode_code]; simp
    · exact h.legal b w hb
  pendingWf := Slots.wf_erase c pending h.pendingWf
  rspWf := Slots.wf_set c _ rsp h.rspWf

theorem ChannelsSound.place {p : Params} {pending : Slots ReqWord} {rsp : Slots RspWord}
    (h : ChannelsSound p pending rsp) {c : Nat} (hc : p.hasCaller c = true) (w : ReqWord) :
    ChannelsSound p (Slots.set c w pending) (Slots.erase c rsp) where
  callers b v hb := by
    rw [Slots.get_set] at hb
    split at hb
    · next hbc => rw [hbc]; exact hc
    · exact h.callers b v hb
  oneAnswer b hb := by
    rw [Slots.get_set] at hb
    rw [Slots.get_erase]
    split
    · rfl
    · next hbc => exact h.oneAnswer b (by rwa [if_neg hbc] at hb)
  legal b v hb := by
    rw [Slots.get_erase] at hb
    split at hb
    · cases hb
    · exact h.legal b v hb
  pendingWf := Slots.wf_set c w pending h.pendingWf
  rspWf := Slots.wf_erase c rsp h.rspWf

/-! ### A sound state, cut at the lock -/

/-- What a sound state satisfies whoever holds the lock. -/
structure State.Base (s : State) : Prop where
  pins     : PinsSound s.pinmap s.owned s.out
  channels : ChannelsSound s.params s.pending s.rsp
  digit    : s.readyIffDigit
  frontWf  : Slots.wf s.front = true
  opNoWf   : Slots.wf s.env.opNo = true

/-- What a sound state satisfies while the lock is free; SEQ itself plays no part in it. -/
structure State.Idle (s : State) : Prop where
  base        : s.Base
  readyOwns   : s.life = .ready → ∀ i : Slot, s.owned[i] = true
  uninitOwns  : s.life = .uninit → ∀ i : Slot, s.owned[i] = false
  syncShows   : s.sync = true → s.life = .ready ∧ ∃ d, s.digit = some d ∧ s.drives (rom d)

/-- What a sound state satisfies while r holds the lock; SEQ itself plays no part in it. -/
structure State.Busy (s : State) (r : SeqRec) : Prop where
  base       : s.Base
  unsynced   : s.sync = false
  setOwns    : r.kind = .set → ∀ i : Slot, s.owned[i] = true
  phase      : s.phaseSound r
  requested  : ∃ w, Slots.get r.caller s.pending = some w ∧ requestKind w = some r.kind
  slot       : r.k.val < 7
  initMapped : r.kind = .init → ∀ i : Slot, s.pinmap[i] ≠ none

theorem State.Inv.base {s : State} (h : s.Inv) : s.Base where
  pins := ⟨h.r41.ownedIffDriven, h.ownedMapped, h.ownedDistinct⟩
  channels := ⟨h.pendingCallers, h.oneAnswer, h.rspLegal, h.pendingWf, h.rspWf⟩
  digit := h.r41.readyIffDigit
  frontWf := h.frontWf
  opNoWf := h.opNoWf

/-- A SET_DIGIT in flight stands on a READY controller (R141). -/
theorem State.phaseSound_ready {s : State} {r : SeqRec} (h : s.phaseSound r) (hk : r.kind = .set) :
    s.life = .ready := by
  obtain ⟨c, ph, k⟩ := r
  cases ph with
  | clear pat val => exact h.1
  | setOn pat val => exact h.1
  | commitSet pat val => exact h.1
  | claim => cases hk
  | unwind err => cases hk
  | commitInit => cases hk
  | off => cases hk
  | release => cases hk

theorem State.Inv.idle {s : State} (h : s.Inv) (hq : s.seq = none) : s.Idle where
  base := h.base
  readyOwns hl := h.r41.readyOwnsAll hl fun r hr => by rw [hq] at hr; cases hr
  uninitOwns hl := h.r41.idleUninitOwnsNone hl hq
  syncShows hs := (h.r41.syncShowsDigit hs).2

/-- A state is sound when it meets the part its lock asks for. -/
theorem State.Base.inv {s : State} (h : s.Base) (hfree : s.seq = none → s.Idle)
    (hheld : ∀ r, s.seq = some r → s.Busy r) : s.Inv where
  r41 :=
    { ownedIffDriven := h.pins.driven
      readyIffDigit := h.digit
      readyOwnsAll := fun hl hk => by
        cases hq : s.seq with
        | none => exact (hfree hq).readyOwns hl
        | some r => exact (hheld r hq).setOwns (hk r hq)
      idleUninitOwnsNone := fun hl hq => (hfree hq).uninitOwns hl
      syncShowsDigit := fun hs => by
        cases hq : s.seq with
        | none => exact ⟨rfl, (hfree hq).syncShows hs⟩
        | some r => rw [(hheld r hq).unsynced] at hs; cases hs
      seqServesPending := fun r hq => by
        obtain ⟨w, hw, -⟩ := (hheld r hq).requested
        rw [hw]; exact Option.some_ne_none w }
  seqSound r hq := ⟨(hheld r hq).phase, (hheld r hq).requested⟩
  seqSlot r hq := (hheld r hq).slot
  initMapped r hq := (hheld r hq).initMapped
  ownedMapped := h.pins.mapped
  ownedDistinct := h.pins.distinct
  pendingCallers := h.channels.callers
  oneAnswer := h.channels.oneAnswer
  rspLegal := h.channels.legal
  pendingWf := h.channels.pendingWf
  rspWf := h.channels.rspWf
  frontWf := h.frontWf
  opNoWf := h.opNoWf

theorem State.Idle.inv {s : State} (h : s.Idle) (hq : s.seq = none) : s.Inv :=
  h.base.inv (fun _ => h) fun r hr => by rw [hq] at hr; cases hr

theorem State.Busy.inv {s : State} {r : SeqRec} (h : s.Busy r) (hq : s.seq = some r) : s.Inv :=
  h.base.inv (fun hn => by rw [hq] at hn; cases hn) fun r' hr' => by rw [hq] at hr'; cases hr'; exact h

theorem State.Inv.busy {s : State} {r : SeqRec} (h : s.Inv) (hq : s.seq = some r) : s.Busy r where
  base := h.base
  unsynced := by
    cases hs : s.sync with
    | false => rfl
    | true => have := (h.r41.syncShowsDigit hs).1; rw [hq] at this; cases this
  setOwns hk := by
    refine h.r41.readyOwnsAll (State.phaseSound_ready (h.seqSound r hq).1 hk) fun r' hr' => ?_
    rw [hq] at hr'; cases hr'; exact hk
  phase := (h.seqSound r hq).1
  requested := (h.seqSound r hq).2
  slot := h.seqSlot r hq
  initMapped := h.initMapped r hq

/-- Taking or keeping the lock in a state that is sound for r gives a sound state. -/
theorem State.Busy.locked {s : State} {r : SeqRec} (h : s.Busy r) : (s.withSeq (some r)).Inv :=
  State.Busy.inv { h with base := { h.base with } } rfl

/-- Freeing the lock with a response in a state that is sound without it gives a sound state. -/
theorem State.Idle.unlocked {s : State} (h : s.Idle) (c : Nat) (st : Status) (info : BitVec 4) (d : Digit) :
    ((s.withSeq none).respond c st info d).Inv :=
  State.Idle.inv { h with base := { h.base with channels := h.base.channels.respond c st info d } } rfl

theorem State.Idle.of_ready {s : State} (h : s.Base) (hl : s.life = .ready) (ho : ∀ i : Slot, s.owned[i] = true)
    (hs : s.sync = false) : s.Idle where
  base := h
  readyOwns _ := ho
  uninitOwns hu := by rw [hl] at hu; cases hu
  syncShows ht := by rw [hs] at ht; cases ht

theorem State.Idle.of_uninit {s : State} (h : s.Base) (hl : s.life = .uninit) (ho : ∀ i : Slot, s.owned[i] = false)
    (hs : s.sync = false) : s.Idle where
  base := h
  readyOwns hr := by rw [hl] at hr; cases hr
  uninitOwns _ := ho
  syncShows ht := by rw [hs] at ht; cases ht

/-- An UNINIT controller whose lock is free shows nothing (R41.5). -/
theorem State.Idle.unsynced {s : State} (h : s.Idle) (hl : s.life = .uninit) : s.sync = false := by
  cases hs : s.sync with
  | false => rfl
  | true => have := (h.syncShows hs).1; rw [hl] at this; cases this

/-! ### Changes outside the block -/

/-- The ports, the front ends and the world outside may change freely, while the lists stay canonical and the operation
in flight keeps its request. -/
theorem State.Inv.withPorts {s : State} (h : s.Inv) {pending : Slots ReqWord} {rsp : Slots RspWord}
    {encOut : Option EncResult} {active : Nat} {front : Slots FrontState} {env : Env}
    (hc : ChannelsSound s.params pending rsp)
    (hq : ∀ r, s.seq = some r → Slots.get r.caller pending = Slots.get r.caller s.pending)
    (hf : Slots.wf front = true) (he : Slots.wf env.opNo = true) :
    State.Inv { s with
      pending := pending, rsp := rsp, encOut := encOut, active := active, front := front, env := env } := by
  cases hs : s.seq with
  | none =>
    have hi := h.idle hs
    exact State.Idle.inv { hi with base := { hi.base with channels := hc, frontWf := hf, opNoWf := he } } rfl
  | some r =>
    have hb := h.busy hs
    obtain ⟨w, hw, hk⟩ := hb.requested
    exact State.Busy.inv { hb with
      base := { hb.base with channels := hc, frontWf := hf, opNoWf := he }
      requested := ⟨w, (hq r hs).trans hw, hk⟩ } rfl

theorem State.Inv.withEnv {s : State} (h : s.Inv) {e : Env} (he : Slots.wf e.opNo = true) : (s.withEnv e).Inv :=
  h.withPorts h.base.channels (fun _ _ => rfl) h.frontWf he

theorem State.Inv.withActive {s : State} (h : s.Inv) (c : Nat) : State.Inv { s with active := c } :=
  h.withPorts h.base.channels (fun _ _ => rfl) h.frontWf h.opNoWf

theorem State.Inv.withEncOut {s : State} (h : s.Inv) (x : Option EncResult) : State.Inv { s with encOut := x } :=
  h.withPorts h.base.channels (fun _ _ => rfl) h.frontWf h.opNoWf

theorem State.Inv.withFront {s : State} (h : s.Inv) (c : Nat) (f : FrontState) : (s.withFront c f).Inv :=
  h.withPorts h.base.channels (fun _ _ => rfl) (Slots.wf_set c f s.front h.frontWf) h.opNoWf

/-- A response to a caller that does not hold the lock. -/
theorem State.Inv.respond {s : State} (h : s.Inv) {c : Nat} (hc : ∀ r, s.seq = some r → r.caller ≠ c) (st : Status)
    (info : BitVec 4) (d : Digit) : (s.respond c st info d).Inv :=
  h.withPorts (h.base.channels.respond c st info d) (fun r hr => by rw [Slots.get_erase, if_neg (hc r hr)]) h.frontWf
    h.opNoWf

/-- A caller that may issue exists and has no request outstanding (R10, R29). -/
theorem callerIdle_spec {s : State} {c : Nat} (h : callerIdle s c = true) :
    s.params.hasCaller c = true ∧ Slots.get c s.pending = none := by
  simp only [callerIdle, Bool.and_eq_true, Option.isNone_iff_eq_none] at h
  exact h.1

/-- A request of a caller that may issue: it holds no lock, since it has no request outstanding (R41.6). -/
theorem State.Inv.place {s : State} (h : s.Inv) {c : Nat} (hc : callerIdle s c = true) (w : ReqWord) :
    (s.place c w).Inv := by
  obtain ⟨hcaller, hnone⟩ := callerIdle_spec hc
  refine h.withPorts (h.base.channels.place hcaller w) (fun r hr => ?_) h.frontWf h.opNoWf
  have hne : r.caller ≠ c := fun e => h.r41.seqServesPending r hr (by rw [e, hnone])
  rw [Slots.get_set, if_neg hne]

/-! ### The micro-steps of an operation in flight -/

section MicroSteps

variable {s t : State} {c : Nat} {k : Slot}

/-- A write by the operation in flight changes OUT at its slot alone; SYNC is 0 already. -/
theorem State.Busy.write {r : SeqRec} (hb : s.Busy r) {ph : WritePhase} {l : Level} {a : GpioAnswer} {u : State}
    (h : gpioWrite c ph k l s = .ok (a, u)) :
    ∃ e lv, u = { s with env := e, out := s.out.set k (some lv) } ∧ (a = .ok → lv = l) ∧ u.Base := by
  obtain ⟨-, hown, e, lv, he, hcase⟩ := gpioWrite_cases h
  have hset : s.owned.set k true = s.owned := by
    rw [← hown]; exact Vector.set_getElem_self k.isLt
  have hu : u = { s with env := e, out := s.out.set k (some lv) } := by
    obtain ⟨-, -, rfl⟩ | ⟨-, rfl⟩ := hcase
    · simp only [State.withEnv, State.withPin, hset]
    · simp only [State.withEnv, State.withPin, hset, ← hb.unsynced]
  refine ⟨e, lv, hu, ?_, ?_⟩
  · rintro rfl
    obtain ⟨-, hl, -⟩ | ⟨hf, -⟩ := hcase
    · exact hl
    · cases hf
  · subst hu
    exact { hb.base with
      pins := hb.base.pins.write hown lv
      opNoWf := by rw [Env.answeredTo_opNo he]; exact hb.base.opNoWf }

/-- Slots below k, and k itself, are the slots below k + 1: a level that every slot below k shows, written at k too. -/
theorem out_below_succ {out : PerSlot (Option Level)} {l : Level} (h : ∀ i : Slot, i.val < k.val → out[i] = some l)
    (i : Slot) (hi : i.val < k.val + 1) : (out.set k (some l))[i] = some l := by
  rw [slot_get_set]
  split
  · rfl
  · next hne => exact h i (by have := Fin.val_ne_of_ne hne; omega)

/-- After a write of OWNED at k the owned slots are those of Q, when Q is right at k and says the same as before
elsewhere. -/
theorem owned_set_decide {owned : PerSlot Bool} {P Q : Slot → Prop} [DecidablePred P] [DecidablePred Q] {b : Bool}
    (h : ∀ i : Slot, owned[i] = decide (P i)) (hk : b = decide (Q k)) (hPQ : ∀ i, i ≠ k → (P i ↔ Q i)) (i : Slot) :
    (owned.set k b)[i] = decide (Q i) := by
  rw [slot_get_set]
  split
  · next he => subst he; exact hk
  · next hne => rw [h i]; exact decide_eq_decide.mpr (hPQ i (Ne.symm hne))

/-- Owning k beside the slots below it is owning the slots below k + 1. -/
theorem owned_set_true {owned : PerSlot Bool} (h : ∀ i : Slot, owned[i] = decide (i.val < k.val)) (i : Slot) :
    (owned.set k true)[i] = decide (i.val < k.val + 1) :=
  owned_set_decide (Q := fun i => i.val < k.val + 1) h (by simp)
    (fun i hi => by have := Fin.val_ne_of_ne hi; omega) i

/-- Giving up the highest slot owned leaves those below it (R116). -/
theorem owned_set_false_top {owned : PerSlot Bool} (h : ∀ i : Slot, owned[i] = decide (i.val ≤ k.val)) (i : Slot) :
    (owned.set k false)[i] = decide (i.val < k.val) :=
  owned_set_decide (Q := fun i => i.val < k.val) h (by simp)
    (fun i hi => by have := Fin.val_ne_of_ne hi; omega) i

/-- Giving up the lowest slot owned leaves those above it (R123). -/
theorem owned_set_false_bottom {owned : PerSlot Bool} (h : ∀ i : Slot, owned[i] = decide (k.val ≤ i.val)) (i : Slot) :
    (owned.set k false)[i] = decide (k.val + 1 ≤ i.val) :=
  owned_set_decide (Q := fun i => k.val + 1 ≤ i.val) h (by simp)
    (fun i hi => by have := Fin.val_ne_of_ne hi; omega) i

/-- Lighting k where no slot between k and j is lit shows the pattern below j (R143). -/
theorem out_shows_below {p : Params} {pat : Pattern} {out : PerSlot (Option Level)} {j : Nat}
    (h : ∀ i : Slot, out[i] = some (if i.val < k.val then lvl p (segBit pat i) else p.inactiveLevel))
    (hlit : segBit pat k = true) (hkj : k.val < j) (hgap : ∀ i : Slot, k.val < i.val → i.val < j → segBit pat i = false)
    (i : Slot) :
    (out.set k (some p.activeLevel))[i] = some (if i.val < j then lvl p (segBit pat i) else p.inactiveLevel) := by
  rw [slot_get_set]
  obtain hlt | rfl | hgt := lt_trichotomy i k
  · rw [if_neg hlt.ne', h i, if_pos (Fin.lt_def.mp hlt), if_pos (Nat.lt_trans hlt hkj)]
  · rw [if_pos rfl, if_pos hkj, hlit, lvl_true]
  · rw [if_neg hgt.ne, h i, if_neg (Nat.lt_asymm (Fin.lt_def.mp hgt))]
    split
    · next hij => rw [hgap i hgt hij, lvl_false]
    · rfl

/-- A clear write (R142) keeps the state sound. -/
theorem setClear_inv {pat : Pattern} {val : Digit} (hb : s.Busy ⟨c, .clear pat val, slotIndex k⟩)
    (h : setClear ⟨c, .clear pat val, slotIndex k⟩ k pat val s = .next t) : t.Inv := by
  obtain ⟨a, u, hw, h⟩ := afterPin_next h
  obtain ⟨e, lv, rfl, hlv, hbase⟩ := hb.write hw
  obtain ⟨hlife, hpat, hout⟩ := hb.phase
  cases a with
  | fail => cases h; exact (State.Idle.of_ready hbase hlife (hb.setOwns rfl) hb.unsynced).unlocked c _ _ _
  | ok =>
    obtain rfl := hlv rfl
    have hout' := out_below_succ hout
    dsimp only at h
    split at h
    · next k' hk' =>
      cases h
      refine State.Busy.locked { hb with base := hbase, phase := And.intro hlife (And.intro hpat ?_), slot := k'.isLt }
      rw [slotIndex_val, nextSlot_some hk']
      exact hout'
    · next hlast =>
      have hdark : ∀ i : Slot, (s.out.set k (some s.inactive))[i] = some s.inactive := fun i =>
        hout' i (by rw [nextSlot_none hlast]; exact i.isLt)
      split at h
      · next hnone => rw [hpat] at hnone; exact absurd hnone (firstLit_rom val)
      · next k' hk' =>
        cases h
        obtain ⟨hlit, hbelow⟩ := firstLit_some hk'
        refine State.Busy.locked { hb with
          base := hbase, phase := And.intro hlife (And.intro hpat (And.intro hlit fun i => ?_)), slot := k'.isLt }
        refine (hdark i).trans (congrArg some ?_)
        split
        · next hi => rw [hbelow i hi, lvl_false]; rfl
        · rfl

/-- A set write (R143) keeps the state sound. -/
theorem setSetOn_inv {pat : Pattern} {val : Digit} (hb : s.Busy ⟨c, .setOn pat val, slotIndex k⟩)
    (h : setSetOn ⟨c, .setOn pat val, slotIndex k⟩ k pat val s = .next t) : t.Inv := by
  obtain ⟨a, u, hw, h⟩ := afterPin_next h
  obtain ⟨e, lv, rfl, hlv, hbase⟩ := hb.write hw
  obtain ⟨hlife, hpat, hlit, hout⟩ := hb.phase
  cases a with
  | fail => cases h; exact (State.Idle.of_ready hbase hlife (hb.setOwns rfl) hb.unsynced).unlocked c _ _ _
  | ok =>
    obtain rfl := hlv rfl
    dsimp only at h
    split at h
    · next j hj =>
      cases h
      obtain ⟨hjlit, hkj, hgap⟩ := nextLit_some hj
      exact State.Busy.locked { hb with
        base := hbase
        phase := And.intro hlife (And.intro hpat (And.intro hjlit (out_shows_below hout hlit hkj hgap)))
        slot := j.isLt }
    · next hlast =>
      cases h
      have hall := out_shows_below hout hlit k.isLt fun i hi _ => nextLit_none hlast i hi
      exact State.Busy.locked { hb with
        base := hbase, phase := And.intro hlife (And.intro hpat fun i => (hall i).trans (by rw [if_pos i.isLt])) }

/-- SET_DIGIT's commit (R146) keeps the state sound: the pins show the digit. -/
theorem setCommit_inv {pat : Pattern} {val : Digit} {k : PinIndex} (hb : s.Busy ⟨c, .commitSet pat val, k⟩)
    (h : setCommit ⟨c, .commitSet pat val, k⟩ val s = .next t) : t.Inv := by
  cases h
  obtain ⟨hlife, rfl, hdrives⟩ := hb.phase
  have hidle : State.Idle { s with digit := some val, sync := true } :=
    { base := { hb.base with digit := iff_of_true hlife (Option.some_ne_none val) }
      readyOwns := fun _ => hb.setOwns rfl
      uninitOwns := fun hu => by rw [hlife] at hu; cases hu
      syncShows := fun _ => ⟨hlife, val, rfl, hdrives⟩ }
  exact hidle.unlocked c .ok 0 0

/-- A failed claim (R114) keeps the state sound: the slots below k are left to unwind, or none is owned. -/
theorem initClaimFailed_inv (hb : s.Busy ⟨c, .claim, slotIndex k⟩) :
    (initClaimFailed ⟨c, .claim, slotIndex k⟩ k s).Inv := by
  obtain ⟨hlife, hslots⟩ := hb.phase
  unfold initClaimFailed
  split
  · next hfirst =>
    have hnone : ∀ i : Slot, s.owned[i] = false := fun i => by
      rw [(hslots i).1, slotIndex_val, prevSlot_none hfirst]; rfl
    exact (State.Idle.of_uninit hb.base hlife hnone hb.unsynced).unlocked c _ _ _
  · next k' hk' =>
    have hk := prevSlot_some hk'
    refine State.Busy.locked { hb with phase := And.intro hlife (And.intro ?_ fun i => ?_), slot := k'.isLt }
    · rw [slotIndex_val]; omega
    · refine (hslots i).1.trans (decide_eq_decide.mpr ?_)
      simp only [slotIndex_val]; omega

/-- A claim (R113, R114) keeps the state sound. -/
theorem initClaim_inv (hb : s.Busy ⟨c, .claim, slotIndex k⟩) (h : initClaim ⟨c, .claim, slotIndex k⟩ k s = .next t) :
    t.Inv := by
  obtain ⟨a, u, hw, h⟩ := afterPin_next h
  obtain ⟨p, e, hp, he, hcase⟩ := gpioClaim_cases hw
  obtain ⟨hlife, hslots⟩ := hb.phase
  have hopNo : Slots.wf e.opNo = true := by rw [Env.answeredTo_opNo he]; exact hb.base.opNoWf
  obtain ⟨rfl, hfree, rfl⟩ | ⟨rfl, rfl⟩ := hcase
  · have hbase : ((s.withEnv e).withPin k true (some s.inactive)).Base :=
      { hb.base with pins := hb.base.pins.claim hp (pinTaken_false hfree) s.inactive, opNoWf := hopNo }
    have howned := owned_set_true fun i => (hslots i).1
    have hout := out_below_succ fun i => (hslots i).2
    dsimp only at h
    split at h
    · next k' hk' =>
      cases h
      refine State.Busy.locked { hb with
        base := hbase, setOwns := nofun, phase := And.intro hlife fun i => ?_, slot := k'.isLt }
      rw [slotIndex_val, nextSlot_some hk']
      exact ⟨howned i, hout i⟩
    · next hlast =>
      cases h
      have hi : ∀ i : Slot, i.val < k.val + 1 := fun i => by rw [nextSlot_none hlast]; exact i.isLt
      exact State.Busy.locked { hb with
        base := hbase
        setOwns := nofun
        phase := And.intro hlife fun i => ⟨(howned i).trans (decide_eq_true (hi i)), hout i (hi i)⟩ }
  · cases h
    exact initClaimFailed_inv { hb with base := { hb.base with opNoWf := hopNo } }

/-- A release (R58) keeps what holds whoever has the lock. -/
theorem State.Base.release (h : s.Base) (k : Slot) : (s.withPin k false none).Base :=
  { h with pins := h.pins.release k }

/-- An unwinding release (R116) keeps the state sound. -/
theorem initUnwind_inv {err : Slot} (hb : s.Busy ⟨c, .unwind err, slotIndex k⟩)
    (h : initUnwind ⟨c, .unwind err, slotIndex k⟩ k err s = .next t) : t.Inv := by
  obtain ⟨u, hu, rfl⟩ := afterRelease_next h
  obtain ⟨-, -, rfl⟩ := gpioRelease_cases hu
  obtain ⟨hlife, herr, hslots⟩ := hb.phase
  have howned := owned_set_false_top hslots
  split
  · next hfirst =>
    have hnone : ∀ i : Slot, (s.owned.set k false)[i] = false := fun i => by
      rw [howned i, prevSlot_none hfirst]; rfl
    exact (State.Idle.of_uninit (hb.base.release k) hlife hnone hb.unsynced).unlocked c _ _ _
  · next k' hk' =>
    have hk := prevSlot_some hk'
    refine State.Busy.locked { hb with
      base := hb.base.release k
      setOwns := nofun
      phase := And.intro hlife (And.intro ?_ fun i => ?_)
      slot := k'.isLt }
    · simp only [slotIndex_val] at herr ⊢; omega
    · refine (howned i).trans (decide_eq_decide.mpr ?_)
      simp only [slotIndex_val]; omega

/-- INIT's commit (R115) keeps the state sound. -/
theorem initCommit_inv {k : PinIndex} (hb : s.Busy ⟨c, .commitInit, k⟩)
    (h : initCommit ⟨c, .commitInit, k⟩ s = .next t) : t.Inv := by
  cases h
  obtain ⟨-, hslots⟩ := hb.phase
  have hbase : State.Base { s with digit := some s.params.defaultDigit, life := .ready, sync := false } :=
    { hb.base with digit := iff_of_true rfl (Option.some_ne_none _) }
  exact (State.Idle.of_ready hbase rfl (fun i => (hslots i).1) rfl).unlocked c .ok 0 0

/-- A SHUTDOWN write (R122) keeps the state sound, whatever its answer. -/
theorem shutdownOff_inv (hb : s.Busy ⟨c, .off, slotIndex k⟩) (h : shutdownOff ⟨c, .off, slotIndex k⟩ k s = .next t) :
    t.Inv := by
  obtain ⟨a, u, hw, h⟩ := afterPin_next h
  obtain ⟨e, lv, rfl, -, hbase⟩ := hb.write hw
  obtain ⟨hlife, hslots⟩ := hb.phase
  split at h
  · next k' hk' =>
    cases h
    exact State.Busy.locked { hb with base := hbase, phase := And.intro hlife hslots, slot := k'.isLt }
  · cases h
    exact State.Busy.locked { hb with
      base := hbase, phase := And.intro hlife fun i => (hslots i).trans (by simp), slot := by simp }

/-- A SHUTDOWN release (R123) keeps the state sound. -/
theorem shutdownRelease_inv (hb : s.Busy ⟨c, .release, slotIndex k⟩)
    (h : shutdownRelease ⟨c, .release, slotIndex k⟩ k s = .next t) : t.Inv := by
  obtain ⟨u, hu, rfl⟩ := afterRelease_next h
  obtain ⟨-, -, rfl⟩ := gpioRelease_cases hu
  obtain ⟨hlife, hslots⟩ := hb.phase
  have howned := owned_set_false_bottom hslots
  split
  · next k' hk' =>
    refine State.Busy.locked { hb with
      base := hb.base.release k, setOwns := nofun, phase := And.intro hlife fun i => ?_, slot := k'.isLt }
    rw [slotIndex_val, nextSlot_some hk']
    exact howned i
  · next hlast =>
    have hnone : ∀ i : Slot, (s.owned.set k false)[i] = false := fun i => by
      rw [howned i, nextSlot_none hlast]; exact decide_eq_false (by omega)
    exact (State.Idle.of_uninit (hb.base.release k) hlife hnone hb.unsynced).unlocked c .ok 0 0

end MicroSteps

/-! ### Reset -/

section Reset

variable (p : Params) (e : Env) (i : Slot)

@[simp] theorem State.resetWith_pinmap_get : (State.resetWith p e).pinmap[i] = none := by simp [State.resetWith]
@[simp] theorem State.resetWith_owned_get : (State.resetWith p e).owned[i] = false := by simp [State.resetWith]
@[simp] theorem State.resetWith_out_get : (State.resetWith p e).out[i] = none := by simp [State.resetWith]

end Reset

/-- The state after a reset is sound (R40, R41), with an environment whose operation numbers are in canonical form. -/
theorem resetWith_inv (p : Params) {e : Env} (he : Slots.wf e.opNo = true) : (State.resetWith p e).Inv := by
  have hbase : (State.resetWith p e).Base :=
    { pins := .of_unowned (State.resetWith_owned_get p e) (State.resetWith_out_get p e)
      channels := ⟨nofun, fun _ _ => rfl, nofun, rfl, rfl⟩
      digit := iff_of_false nofun (fun hn => hn rfl)
      frontWf := rfl
      opNoWf := he }
  exact (State.Idle.of_uninit hbase rfl (State.resetWith_owned_get p e) rfl).inv rfl

/-! ### Operations and acts -/

section Operations

variable {s t : State}

/-- SET_DIGIT's next micro-step, whatever is in flight: another operation's phase makes it wait (R64). -/
theorem setGo_inv {r : SeqRec} (hs : s.Inv) (hq : s.seq = some r) (h : setGo s r = .next t) : t.Inv := by
  have hb := hs.busy hq
  obtain ⟨c, ph, x⟩ := r
  cases ph with
  | clear pat val => obtain ⟨k, rfl, h⟩ := atSlot_next h; exact setClear_inv hb h
  | setOn pat val => obtain ⟨k, rfl, h⟩ := atSlot_next h; exact setSetOn_inv hb h
  | commitSet pat val => exact setCommit_inv hb h
  | claim => cases h; exact hs
  | unwind err => cases h; exact hs
  | commitInit => cases h; exact hs
  | off => cases h; exact hs
  | release => cases h; exact hs

/-- INIT's next micro-step, whatever is in flight: another operation's phase makes it wait (R64). -/
theorem initGo_inv {r : SeqRec} (hs : s.Inv) (hq : s.seq = some r) (h : initGo s r = .next t) : t.Inv := by
  have hb := hs.busy hq
  obtain ⟨c, ph, x⟩ := r
  cases ph with
  | claim => obtain ⟨k, rfl, h⟩ := atSlot_next h; exact initClaim_inv hb h
  | unwind err => obtain ⟨k, rfl, h⟩ := atSlot_next h; exact initUnwind_inv hb h
  | commitInit => exact initCommit_inv hb h
  | clear pat val => cases h; exact hs
  | setOn pat val => cases h; exact hs
  | commitSet pat val => cases h; exact hs
  | off => cases h; exact hs
  | release => cases h; exact hs

/-- SHUTDOWN's next micro-step, whatever is in flight: another operation's phase makes it wait (R64). -/
theorem shutdownGo_inv {r : SeqRec} (hs : s.Inv) (hq : s.seq = some r) (h : shutdownGo s r = .next t) : t.Inv := by
  have hb := hs.busy hq
  obtain ⟨c, ph, x⟩ := r
  cases ph with
  | off => obtain ⟨k, rfl, h⟩ := atSlot_next h; exact shutdownOff_inv hb h
  | release => obtain ⟨k, rfl, h⟩ := atSlot_next h; exact shutdownRelease_inv hb h
  | claim => cases h; exact hs
  | unwind err => cases h; exact hs
  | commitInit => cases h; exact hs
  | clear pat val => cases h; exact hs
  | setOn pat val => cases h; exact hs
  | commitSet pat val => cases h; exact hs

/-- The lock (R27, R64): an operation keeps the state sound when its acquisition does with the lock free, and its next
micro-step does with the lock its own. -/
theorem withLock_inv {acquire : Result} {go : SeqRec → Result} (hs : s.Inv)
    (hacquire : s.seq = none → acquire = .next t → t.Inv) (hgo : ∀ r, s.seq = some r → go r = .next t → t.Inv)
    (h : withLock s acquire go = .next t) : t.Inv := by
  obtain ⟨hq, h⟩ | ⟨r, hq, -, h⟩ | ⟨-, -, -, rfl⟩ := withLock_next h
  · exact hacquire hq h
  · exact hgo r hq h
  · exact hs

/-- With the lock free, a response to anybody keeps the state sound. -/
theorem State.Inv.respond_free (hs : s.Inv) (hq : s.seq = none) (c : Nat) (st : Status) (info : BitVec 4) (d : Digit) :
    (s.respond c st info d).Inv :=
  hs.respond (fun r hr => by rw [hq] at hr; cases hr) st info d

variable {w : ReqWord}

/-- SET_DIGIT's acquisition (R141). -/
theorem setAcquire_inv {v : Value} (hs : s.Inv) (hq : s.seq = none) (hw : Slots.get s.active s.pending = some w)
    (hk : requestKind w = some .set) (h : setAcquire v s = .next t) : t.Inv := by
  have hi := hs.idle hq
  unfold setAcquire at h
  split at h
  · cases h; exact hs.respond_free hq _ _ _ _
  · next hlife =>
    split at h
    · cases h
      have hb : State.Busy { s with sync := false } ⟨s.active, .clear (rom (lowDigit v)) (lowDigit v), 0⟩ :=
        { base := { hi.base with }
          unsynced := rfl
          setOwns := fun _ => hi.readyOwns hlife
          phase := And.intro hlife (And.intro rfl nofun)
          requested := ⟨w, hw, hk⟩
          slot := by simp
          initMapped := nofun }
      exact hb.locked
    · cases h; exact hs.respond_free hq _ _ _ _

/-- INIT's acquisition (R112): nothing is owned, so the new pins are nobody's. -/
theorem initAcquire_inv (hs : s.Inv) (hq : s.seq = none) (hw : Slots.get s.active s.pending = some w)
    (hk : requestKind w = some .init) (h : initAcquire s = .next t) : t.Inv := by
  have hi := hs.idle hq
  unfold initAcquire at h
  split at h
  · cases h; exact hs.respond_free hq _ _ _ _
  · next hlife =>
    cases h
    have hnone := hi.uninitOwns hlife
    have hb : State.Busy { s with pinmap := samplePins s.env.cfgPin } ⟨s.active, .claim, 0⟩ :=
      { base := { hi.base with pins := .of_unowned hnone fun i => (hi.base.pins.driven i).mp (hnone i) }
        unsynced := hi.unsynced hlife
        setOwns := nofun
        phase := And.intro hlife fun i => ⟨(hnone i).trans (by simp), nofun⟩
        requested := ⟨w, hw, hk⟩
        slot := by simp
        initMapped := fun _ i => by rw [samplePins_get]; simp }
    exact hb.locked

/-- SHUTDOWN's acquisition (R121). -/
theorem shutdownAcquire_inv (hs : s.Inv) (hq : s.seq = none) (hw : Slots.get s.active s.pending = some w)
    (hk : requestKind w = some .shutdown) (h : shutdownAcquire s = .next t) : t.Inv := by
  have hi := hs.idle hq
  unfold shutdownAcquire at h
  split at h
  · cases h; exact hs.respond_free hq _ _ _ _
  · next hlife =>
    cases h
    have hb : State.Busy { s with life := .uninit, digit := none, sync := false } ⟨s.active, .off, 0⟩ :=
      { base := { hi.base with digit := iff_of_false nofun (fun hn => hn rfl) }
        unsynced := rfl
        setOwns := nofun
        phase := And.intro rfl (hi.readyOwns hlife)
        requested := ⟨w, hw, hk⟩
        slot := by simp
        initMapped := nofun }
    exact hb.locked

/-- GET_DIGIT (R150): the caller it answers holds no lock, since its request is of no lock-taking kind. -/
theorem execGetDigit_inv {v : Value} (hs : s.Inv) (hw : Slots.get s.active s.pending = some w)
    (hk : requestKind w = none) (h : execGetDigit v s = .next t) : t.Inv := by
  have hother : ∀ r, s.seq = some r → r.caller ≠ s.active := by
    intro r hr hc
    obtain ⟨w', hw', hk'⟩ := (hs.busy hr).requested
    rw [hc, hw] at hw'
    cases hw'
    rw [hk] at hk'; cases hk'
  unfold execGetDigit at h
  split at h
  · cases h; exact hs.respond hother _ _ _
  · split at h
    · cases h; exact hs.respond hother _ _ _
    · cases h

/-- A micro-step of the active caller's own request keeps the state sound. -/
theorem execRequest_inv (hs : s.Inv) (hw : Slots.get s.active s.pending = some w)
    (h : exec (decodeRequest w) s = .next t) : t.Inv := by
  cases hd : decodeRequest w with
  | getDigit v => rw [hd] at h; exact execGetDigit_inv (v := v) hs hw (by rw [requestKind, hd]) h
  | setDigit v =>
    rw [hd] at h
    exact withLock_inv hs (fun hq => setAcquire_inv hs hq hw (by rw [requestKind, hd]))
      (fun r hq => setGo_inv hs hq) h
  | init v =>
    rw [hd] at h
    exact withLock_inv hs (fun hq => initAcquire_inv hs hq hw (by rw [requestKind, hd]))
      (fun r hq => initGo_inv hs hq) h
  | shutdown v =>
    rw [hd] at h
    exact withLock_inv hs (fun hq => shutdownAcquire_inv hs hq hw (by rw [requestKind, hd]))
      (fun r hq => shutdownGo_inv hs hq) h
  | encode x => rw [hd] at h; cases h; exact hs.withEncOut _

/-- A front end takes a response: no more than its own call changes (R171, R172). -/
theorem frontCollect_inv {c : Nat} (hs : s.Inv) (h : frontCollect c s = .next t) : t.Inv := by
  unfold frontCollect at h
  split at h
  · split at h
    · cases h; exact hs.withFront _ _
    · cases h
  · split at h
    · cases h; exact hs.withFront _ _
    · cases h
  all_goals cases h; exact hs

/-- A front-end write by a caller that may issue (R171). -/
theorem frontWrite_inv {c : Nat} (hs : s.Inv) (hc : callerIdle s c = true) (b : Byte) : (frontWrite c b s).Inv := by
  unfold frontWrite
  split
  · exact (hs.place hc _).withFront _ _
  · exact hs.withFront _ _

/-- An act that runs no instruction keeps the state sound. -/
theorem perform_inv {e : Event} (hs : s.Inv) (h : perform e s = .next t) : t.Inv := by
  cases e with
  | request c w =>
    cases h
    split
    · next hc => exact hs.place hc w
    · exact hs
  | writeAscii c b rest =>
    cases h
    split
    · next hc => exact frontWrite_inv hs hc b
    · exact hs
  | readAscii c via =>
    cases h
    split
    · next hc => exact (hs.place hc getWord).withFront c _
    · exact hs
  | collect c => exact frontCollect_inv hs h
  | cfgPins p => cases h; exact hs.withEnv hs.opNoWf
  | reset => cases h; exact resetWith_inv s.params hs.opNoWf
  | idle => cases h; exact hs
  | serve c => cases h; exact hs
  | encode x => cases h; exact hs
  | line c => cases h; exact hs

/-- Resolving an act keeps the operation numbers in canonical form (R82). -/
theorem resolve_opNoWf (e : Event) (h : Slots.wf s.env.opNo = true) : Slots.wf (resolve e s).2.env.opNo = true := by
  have hun : ∀ c, Slots.wf (if callerIdle s c then s.unnumbered c else s).env.opNo = true := by
    intro c
    split
    · exact Slots.wf_erase c _ h
    · exact h
  cases e with
  | line c =>
    simp only [resolve]
    split
    · split
      · exact Slots.wf_set c _ _ h
      · exact h
    · exact h
  | request c w => exact hun c
  | writeAscii c b rest => exact hun c
  | readAscii c via => exact hun c
  | idle => exact h
  | serve c => exact h
  | encode x => exact h
  | cfgPins p => exact h
  | reset => exact h
  | collect c => exact h

/-- Taking the next act keeps the state sound. -/
theorem nextEvent_inv (hs : s.Inv) : (nextEvent s).2.Inv := by
  rw [nextEvent_block]
  refine hs.withEnv ?_
  unfold nextEvent
  split
  · exact resolve_opNoWf _ hs.opNoWf
  · exact resolve_opNoWf _ hs.opNoWf

/-- Every step from a sound state leads to a sound state. -/
theorem step_inv (hs : s.Inv) (h : step s = .next t) : t.Inv := by
  have hn := nextEvent_inv hs
  obtain ⟨c, w, -, hw, hstep⟩ | ⟨x, -, hstep⟩ | ⟨-, hstep⟩ := step_cases s
  · rw [hstep] at h
    refine execRequest_inv (hn.withActive c) ?_ h
    rw [nextEvent_block]
    exact hw
  · rw [hstep] at h; cases h; exact hn.withEncOut _
  · rw [hstep] at h; exact perform_inv hn h

end Operations

/-! ### Runs -/

/-- A run of n + 1 steps that goes on is a step, then a run of n. -/
theorem runSteps_succ {s t : State} {n : Nat} (h : runSteps (n + 1) s = .next t) :
    ∃ u, step s = .next u ∧ runSteps n u = .next t := by
  simp only [runSteps, Host.Core.run] at h
  split at h
  · next u hu => exact ⟨u, hu, h⟩
  · cases h
  · cases h

/-- Every run from a sound state leads to a sound state. -/
theorem runSteps_inv {n : Nat} {s t : State} (hs : s.Inv) (h : runSteps n s = .next t) : t.Inv := by
  induction n generalizing s with
  | zero => cases h; exact hs
  | succ n ih =>
    obtain ⟨u, hstep, hrun⟩ := runSteps_succ h
    exact ih (step_inv hs hstep) hrun

/-! ### The statements -/

/-- Settles O12: each element of State.resetWith is its reset value (R40). -/
theorem resetValues : Obligations.ResetValues :=
  ⟨fun p e => ⟨rfl, State.resetWith_pinmap_get p e, State.resetWith_owned_get p e, State.resetWith_out_get p e, rfl,
    rfl, fun _ => rfl, rfl⟩, rfl⟩

/-- Settles O53: State.Inv holds after reset and every step keeps it, and R41 is part of it. -/
theorem reachableStatesKeepR41 : Obligations.ReachableStatesKeepR41 :=
  fun p _ _ _ he hrun => (runSteps_inv (resetWith_inv p he) hrun).r41

end Sys2Proof.Machine
end

section
/-! SUPPORT. The statements of the ROM (R50) and of a release (R58). -/

namespace Sys2Proof.Machine

open Sys2Proof

/-- No ROM entry is the empty pattern: the empty pattern has no first lit slot, and every entry has one (R50). -/
theorem rom_ne_zero (d : Digit) : rom d ≠ 0 := by
  intro hzero
  have hlit : firstLit (rom d) ≠ none := firstLit_rom d
  rw [hzero] at hlit
  exact hlit (by decide)

/-- Settles O14: each entry is read off the table, no entry is empty, and segBit reads bit i (R50). -/
theorem romIsTheTable : Obligations.RomIsTheTable :=
  ⟨rfl, rfl, rfl, rfl, rfl, rfl, rfl, rfl, rfl, rfl, rfl, rfl, rfl, rfl, rfl, rfl, rom_ne_zero, fun _ _ => rfl⟩

/-- Settles O19: a release of an owned slot with a pin completes with that slot's OWNED and OUT set, nothing else (R58). -/
theorem releaseFreesOneSlot : Obligations.ReleaseFreesOneSlot :=
  fun _ _ hpin howned => gpioRelease_completes hpin howned

end Sys2Proof.Machine
end

section
/-! SUPPORT. The statements of the request word's mask rows (R78) and of the response word's fields (R72). -/

namespace Sys2Proof

/-- The mask keeps the op field: a word whose masked bits are an op above zeros has that op (R78). -/
theorem opField_of_mask {w : ReqWord} {op : BitVec 2} (h : w &&& 0x300#10 = op ++ 0#8) : opField w = op := by
  rw [← append_fields w, Laws.FixedBits.mask_op] at h
  exact (BitVec.append_left_inj 0#8).mp h

/-! One equation per row of R78: the op field chooses the operation, the value field is its operand. -/

theorem decodeRequest_of_op_00 {w : ReqWord} (h : opField w = 0b00#2) : decodeRequest w = .getDigit (valueField w) := by
  simp [decodeRequest, h]

theorem decodeRequest_of_op_01 {w : ReqWord} (h : opField w = 0b01#2) : decodeRequest w = .setDigit (valueField w) := by
  simp [decodeRequest, h]

theorem decodeRequest_of_op_10 {w : ReqWord} (h : opField w = 0b10#2) : decodeRequest w = .init (valueField w) := by
  simp [decodeRequest, h]

theorem decodeRequest_of_op_11 {w : ReqWord} (h : opField w = 0b11#2) : decodeRequest w = .shutdown (valueField w) := by
  simp [decodeRequest, h]

/-- An op above a value is the op's match word with the value in its low bits (R78). -/
theorem append_eq_match_or_value (op : BitVec 2) (v : Value) : op ++ v = (op ++ 0#8) ||| v.zeroExtend 10 := by
  have hv : v.zeroExtend 10 = 0#2 ++ v := BitVec.setWidth_eq_append (by decide)
  rw [hv, BitVec.or_append, BitVec.or_zero, BitVec.zero_or]

/-- Settles O1: the masked bits of a word give its op field, which chooses the operation (R78). Each match of R78 is its
row's op above eight zeros. -/
theorem requestWordsDecode : Obligations.RequestWordsDecode := by
  refine ⟨fun w => ⟨?getDigit, ?setDigit, ?init, ?shutdown⟩, rfl, rfl, rfl, ?setDigitWord⟩
  case getDigit => exact fun h => decodeRequest_of_op_00 (opField_of_mask h)
  case setDigit => exact fun h => decodeRequest_of_op_01 (opField_of_mask h)
  case init => exact fun h => decodeRequest_of_op_10 (opField_of_mask h)
  case shutdown => exact fun h => decodeRequest_of_op_11 (opField_of_mask h)
  case setDigitWord => exact fun v => congrArg PortWord.request (append_eq_match_or_value 0b01#2 v)

namespace Machine

/-- A response word carries the info it was made with (R72). -/
theorem rspInfo_rspWord (st : Status) (info : BitVec 4) (d : Digit) : rspInfo (rspWord st info d) = info := by
  unfold rspInfo rspWord
  rw [BitVec.extractLsb'_append_eq_of_le (by decide)]
  exact BitVec.extractLsb'_append_eq_right

/-- A response word carries the digit it was made with (R72, R75). -/
theorem rspDigit_rspWord (st : Status) (info : BitVec 4) (d : Digit) : rspDigit (rspWord st info d) = d :=
  BitVec.extractLsb'_append_eq_right

/-- Settles O6: each field of the response word is read back as it was put in (R72). -/
theorem responseFieldsInPlace : Obligations.ResponseFieldsInPlace :=
  fun st info d => ⟨rspStatus_rspWord st info d, rspInfo_rspWord st info d, rspDigit_rspWord st info d⟩

end Machine

end Sys2Proof
end

section
/-! SUPPORT. The statement of ENCODE (R101). -/

namespace Sys2Proof.Machine

open Sys2Proof

/-- ENCODE puts ENCODE's function of its operand on the encoder port, in every state (R100, R101). -/
theorem exec_encode (x : Value) (s : State) : exec (.encode x) s = .next { s with encOut := some (encodeValue x) } := rfl

/-- A value in range encodes to the ROM's entry for its digit (R101). -/
theorem encodeValue_of_le {x : Value} (h : x.toNat ≤ 15) : encodeValue x = .ok (rom (lowDigit x)) :=
  if_pos (decide_eq_true h)

/-- A value above the range is rejected (R101). -/
theorem encodeValue_of_gt {x : Value} (h : 15 < x.toNat) : encodeValue x = .invalidDigit :=
  if_neg fun hin => Nat.not_le_of_gt h (of_decide_eq_true hin)

/-- Settles O15: the range check alone chooses between the ROM's entry and InvalidDigit, and only the port is written
(R101). -/
theorem encodeGivesPattern : Obligations.EncodeGivesPattern := by
  refine fun x s => ⟨fun hle => ⟨?inRange, rfl, rfl⟩, fun hgt => ⟨?aboveRange, rfl, rfl⟩⟩
  case inRange => rw [exec_encode, encodeValue_of_le hle, lowDigit]
  case aboveRange => rw [exec_encode, encodeValue_of_gt hgt]

end Sys2Proof.Machine
end

section
/-! SUPPORT. INIT and SHUTDOWN by the state of the lock (R110, R120), which steps write PINMAP (R112), and the statements
of INIT's acquisition and commit and of SHUTDOWN's acquisition and release. -/

namespace Sys2Proof.Machine

open Sys2Proof

section Lifecycle

variable {s t : State} {r : SeqRec} {k : Slot}

/-! ### The next slot, found from its number -/

theorem nextSlot_eq_some {k' : Slot} (h : k'.val = k.val + 1) : nextSlot k = some k' := by
  have hk : k.val < 6 := by omega
  simp [nextSlot, hk, Fin.ext_iff, h]

/-! ### INIT's and SHUTDOWN's micro-steps, one equation per case of the lock, the lifecycle or the phase -/

theorem exec_init_free (v : Value) (hq : s.seq = none) : exec (.init v) s = initAcquire s := withLock_free hq _ _

theorem exec_init_mine (v : Value) (hq : s.seq = some r) (hc : r.caller = s.active) :
    exec (.init v) s = initGo s r := withLock_mine hq hc _ _

theorem exec_shutdown_free (v : Value) (hq : s.seq = none) : exec (.shutdown v) s = shutdownAcquire s :=
  withLock_free hq _ _

theorem exec_shutdown_mine (v : Value) (hq : s.seq = some r) (hc : r.caller = s.active) :
    exec (.shutdown v) s = shutdownGo s r := withLock_mine hq hc _ _

/-- R112: on a READY controller INIT's acquisition fails. -/
theorem initAcquire_ready (hl : s.life = .ready) : initAcquire s = .next (s.failWith s.active .badState 0) := by
  simp only [initAcquire, hl]

/-- R112: on an UNINIT controller INIT's acquisition samples the pins and takes the lock. -/
theorem initAcquire_uninit (hl : s.life = .uninit) :
    initAcquire s =
      .next { s with pinmap := samplePins s.env.cfgPin, seq := some { caller := s.active, phase := .claim, k := 0 } } := by
  simp only [initAcquire, hl]

/-- R121: on an UNINIT controller SHUTDOWN answers at once. -/
theorem shutdownAcquire_uninit (hl : s.life = .uninit) :
    shutdownAcquire s = .next (s.respond s.active .ok 0 0) := by
  simp only [shutdownAcquire, hl]

/-- R121: on a READY controller SHUTDOWN's acquisition ends READY and takes the lock. -/
theorem shutdownAcquire_ready (hl : s.life = .ready) :
    shutdownAcquire s =
      .next { s with life := .uninit, digit := none, sync := false,
                     seq := some { caller := s.active, phase := .off, k := 0 } } := by
  simp only [shutdownAcquire, hl]

theorem initGo_commitInit (hph : r.phase = .commitInit) : initGo s r = initCommit r s := by
  simp only [initGo, hph]

theorem shutdownGo_release (hph : r.phase = .release) (hk : r.k = slotIndex k) :
    shutdownGo s r = shutdownRelease r k s := by
  simp only [shutdownGo, hph, atSlot_of hk]

/-- R123: SHUTDOWN's release of an owned slot that is not the last. -/
theorem shutdownRelease_next {k' : Slot} (hpin : s.pinmap[k] ≠ none) (howned : s.owned[k] = true)
    (hnext : nextSlot k = some k') :
    shutdownRelease r k s = .next ((s.withPin k false none).withSeq (some { r with k := slotIndex k' })) := by
  simp only [shutdownRelease, gpioRelease_completes hpin howned, afterRelease, hnext]

/-- R123: SHUTDOWN's release of the last slot. -/
theorem shutdownRelease_last (hpin : s.pinmap[k] ≠ none) (howned : s.owned[k] = true) (hnext : nextSlot k = none) :
    shutdownRelease r k s = .next (((s.withPin k false none).withSeq none).respond r.caller .ok 0 0) := by
  simp only [shutdownRelease, gpioRelease_completes hpin howned, afterRelease, hnext]

/-! ### Micro-steps that leave PINMAP alone -/

theorem gpioWrite_pinmap {c : Nat} {ph : WritePhase} {l : Level} {a : GpioAnswer}
    (h : gpioWrite c ph k l s = .ok (a, t)) : t.pinmap = s.pinmap := by
  obtain ⟨-, -, e, lv, -, ⟨-, -, rfl⟩ | ⟨-, rfl⟩⟩ := gpioWrite_cases h
  · rfl
  · rfl

theorem gpioClaim_pinmap {l : Level} {a : GpioAnswer} (h : gpioClaim k l s = .ok (a, t)) : t.pinmap = s.pinmap := by
  obtain ⟨p, e, -, -, ⟨-, -, rfl⟩ | ⟨-, rfl⟩⟩ := gpioClaim_cases h
  · rfl
  · rfl

theorem gpioRelease_pinmap (h : gpioRelease k s = .ok t) : t.pinmap = s.pinmap := by
  obtain ⟨-, -, rfl⟩ := gpioRelease_cases h
  rfl

/-- A micro-step leaves PINMAP alone when its claim or write does and what follows the answer does. -/
theorem afterPin_pinmap {p : Except Fault (GpioAnswer × State)} {f : GpioAnswer → State → Result}
    (hp : ∀ a u, p = .ok (a, u) → u.pinmap = s.pinmap) (hf : ∀ a u, f a u = .next t → t.pinmap = u.pinmap)
    (h : afterPin p f = .next t) : t.pinmap = s.pinmap := by
  obtain ⟨a, u, hu, ht⟩ := afterPin_next h
  exact (hf a u ht).trans (hp a u hu)

theorem afterRelease_pinmap {f : State → State} (hf : ∀ u, (f u).pinmap = u.pinmap)
    (h : afterRelease (gpioRelease k s) f = .next t) : t.pinmap = s.pinmap := by
  obtain ⟨u, hu, rfl⟩ := afterRelease_next h
  exact (hf u).trans (gpioRelease_pinmap hu)

theorem setClear_pinmap {pat : Pattern} {val : Digit} (h : setClear r k pat val s = .next t) :
    t.pinmap = s.pinmap := by
  refine afterPin_pinmap (fun _ _ => gpioWrite_pinmap) (fun a u hu => ?_) h
  cases a with
  | fail => cases hu; rfl
  | ok =>
    dsimp only at hu
    split at hu
    · cases hu; rfl
    · split at hu <;> cases hu <;> rfl

theorem setSetOn_pinmap {pat : Pattern} {val : Digit} (h : setSetOn r k pat val s = .next t) :
    t.pinmap = s.pinmap := by
  refine afterPin_pinmap (fun _ _ => gpioWrite_pinmap) (fun a u hu => ?_) h
  cases a with
  | fail => cases hu; rfl
  | ok =>
    dsimp only at hu
    split at hu <;> cases hu <;> rfl

theorem initClaimFailed_pinmap : (initClaimFailed r k s).pinmap = s.pinmap := by
  unfold initClaimFailed
  split <;> rfl

theorem initClaim_pinmap (h : initClaim r k s = .next t) : t.pinmap = s.pinmap := by
  refine afterPin_pinmap (fun _ _ => gpioClaim_pinmap) (fun a u hu => ?_) h
  cases a with
  | fail => cases hu; exact initClaimFailed_pinmap
  | ok =>
    dsimp only at hu
    split at hu <;> cases hu <;> rfl

theorem initUnwind_pinmap {err : Slot} (h : initUnwind r k err s = .next t) : t.pinmap = s.pinmap := by
  refine afterRelease_pinmap (fun u => ?_) h
  split <;> rfl

theorem shutdownOff_pinmap (h : shutdownOff r k s = .next t) : t.pinmap = s.pinmap := by
  refine afterPin_pinmap (fun _ _ => gpioWrite_pinmap) (fun a u hu => ?_) h
  split at hu <;> cases hu <;> rfl

theorem shutdownRelease_pinmap (h : shutdownRelease r k s = .next t) : t.pinmap = s.pinmap := by
  refine afterRelease_pinmap (fun u => ?_) h
  split <;> rfl

theorem setAcquire_pinmap {v : Value} (h : setAcquire v s = .next t) : t.pinmap = s.pinmap := by
  unfold setAcquire at h
  split at h
  · cases h; rfl
  · split at h <;> cases h <;> rfl

theorem shutdownAcquire_pinmap (h : shutdownAcquire s = .next t) : t.pinmap = s.pinmap := by
  cases hl : s.life with
  | uninit => rw [shutdownAcquire_uninit hl] at h; cases h; rfl
  | ready => rw [shutdownAcquire_ready hl] at h; cases h; rfl

/-! ### Operations that hold the lock leave PINMAP alone -/

/-- SET_DIGIT's phases: two write a pin, the commit writes DIGIT, and the others' phases make it wait (R64). -/
theorem setGo_pinmap (h : setGo s r = .next t) : t.pinmap = s.pinmap := by
  obtain ⟨c, ph, x⟩ := r
  cases ph
  case clear pat val => obtain ⟨k, -, h⟩ := atSlot_next h; exact setClear_pinmap h
  case setOn pat val => obtain ⟨k, -, h⟩ := atSlot_next h; exact setSetOn_pinmap h
  all_goals cases h; rfl

/-- INIT's phases: two touch a pin, the commit writes DIGIT and LIFE, and the others' phases make it wait (R64). -/
theorem initGo_pinmap (h : initGo s r = .next t) : t.pinmap = s.pinmap := by
  obtain ⟨c, ph, x⟩ := r
  cases ph
  case claim => obtain ⟨k, -, h⟩ := atSlot_next h; exact initClaim_pinmap h
  case unwind err => obtain ⟨k, -, h⟩ := atSlot_next h; exact initUnwind_pinmap h
  all_goals cases h; rfl

/-- SHUTDOWN's phases: two touch a pin, and the others' phases make it wait (R64). -/
theorem shutdownGo_pinmap (h : shutdownGo s r = .next t) : t.pinmap = s.pinmap := by
  obtain ⟨c, ph, x⟩ := r
  cases ph
  case off => obtain ⟨k, -, h⟩ := atSlot_next h; exact shutdownOff_pinmap h
  case release => obtain ⟨k, -, h⟩ := atSlot_next h; exact shutdownRelease_pinmap h
  all_goals cases h; rfl

/-! ### The writers of PINMAP -/

/-- INIT's acquisition on an UNINIT controller, the one micro-step that writes PINMAP (R112). -/
def State.SamplesPins (s t : State) : Prop :=
  s.seq = none ∧ s.life = .uninit ∧ t.pinmap = samplePins s.env.cfgPin

theorem execSetDigit_pinmap {v : Value} (h : execSetDigit v s = .next t) : t.pinmap = s.pinmap := by
  obtain ⟨-, h⟩ | ⟨r, -, -, h⟩ | ⟨-, -, -, rfl⟩ := withLock_next h
  · exact setAcquire_pinmap h
  · exact setGo_pinmap h
  · rfl

theorem execShutdown_pinmap {v : Value} (h : execShutdown v s = .next t) : t.pinmap = s.pinmap := by
  obtain ⟨-, h⟩ | ⟨r, -, -, h⟩ | ⟨-, -, -, rfl⟩ := withLock_next h
  · exact shutdownAcquire_pinmap h
  · exact shutdownGo_pinmap h
  · rfl

theorem execGetDigit_pinmap {v : Value} (h : execGetDigit v s = .next t) : t.pinmap = s.pinmap := by
  unfold execGetDigit at h
  split at h
  · cases h; rfl
  · split at h
    · cases h; rfl
    · cases h

theorem execInit_pinmap {v : Value} (h : execInit v s = .next t) : t.pinmap = s.pinmap ∨ s.SamplesPins t := by
  obtain ⟨hq, h⟩ | ⟨r, -, -, h⟩ | ⟨-, -, -, rfl⟩ := withLock_next h
  · cases hl : s.life with
    | ready => rw [initAcquire_ready hl] at h; cases h; exact .inl rfl
    | uninit => rw [initAcquire_uninit hl] at h; cases h; exact .inr ⟨hq, hl, rfl⟩
  · exact .inl (initGo_pinmap h)
  · exact .inl rfl

/-- Of all micro-steps only INIT's acquisition writes PINMAP (R112). -/
theorem exec_pinmap {i : Instr} (h : exec i s = .next t) :
    t.pinmap = s.pinmap ∨ (∃ v, i = .init v) ∧ s.SamplesPins t := by
  cases i with
  | getDigit v => exact .inl (execGetDigit_pinmap (v := v) h)
  | setDigit v => exact .inl (execSetDigit_pinmap (v := v) h)
  | init v => exact (execInit_pinmap (v := v) h).imp_right fun hsample => ⟨⟨v, rfl⟩, hsample⟩
  | shutdown v => exact .inl (execShutdown_pinmap (v := v) h)
  | encode x => cases h; exact .inl rfl

theorem frontCollect_pinmap {c : Nat} (h : frontCollect c s = .next t) : t.pinmap = s.pinmap := by
  unfold frontCollect at h
  split at h
  · split at h
    · cases h; rfl
    · cases h
  · split at h
    · cases h; rfl
    · cases h
  all_goals cases h; rfl

theorem frontWrite_pinmap (c : Nat) (b : Byte) : (frontWrite c b s).pinmap = s.pinmap := by
  unfold frontWrite
  split <;> rfl

/-- Of the acts that run no instruction only a reset writes PINMAP (R40). -/
theorem perform_pinmap {e : Event} (he : e ≠ .reset) (h : perform e s = .next t) : t.pinmap = s.pinmap := by
  cases e with
  | request c w =>
    cases h
    split <;> rfl
  | writeAscii c b rest =>
    cases h
    split
    · exact frontWrite_pinmap c b
    · rfl
  | readAscii c via =>
    cases h
    split <;> rfl
  | collect c => exact frontCollect_pinmap h
  | reset => contradiction
  | cfgPins p => cases h; rfl
  | idle => cases h; rfl
  | serve c => cases h; rfl
  | encode x => cases h; rfl
  | line c => cases h; rfl

/-- Resolving an act leaves cfg_pin as the platform drives it (R33). -/
theorem resolve_cfgPin (e : Event) (s : State) : (resolve e s).2.env.cfgPin = s.env.cfgPin := by
  have hnumber : ∀ c, (if callerIdle s c then s.unnumbered c else s).env.cfgPin = s.env.cfgPin := by
    intro c
    split <;> rfl
  cases e with
  | line c =>
    simp only [resolve]
    split
    · split <;> rfl
    · rfl
  | request c w => exact hnumber c
  | writeAscii c b rest => exact hnumber c
  | readAscii c via => exact hnumber c
  | idle => rfl
  | serve c => rfl
  | encode x => rfl
  | cfgPins p => rfl
  | reset => rfl
  | collect c => rfl

/-- Taking the next act leaves cfg_pin as the platform drives it (R33). -/
theorem nextEvent_cfgPin (s : State) : (nextEvent s).2.env.cfgPin = s.env.cfgPin := by
  unfold nextEvent
  split
  · exact resolve_cfgPin _ _
  · exact resolve_cfgPin _ _

/-- Of all steps only a reset (R40) and INIT's acquisition (R112) write PINMAP. -/
theorem step_pinmap (h : step s = .next t) :
    t.pinmap = s.pinmap ∨ (nextEvent s).1 = .reset ∨
      ∃ c v, (nextEvent s).1 = .serve c ∧ s.requests c (.init v) ∧ s.SamplesPins t := by
  have hpinmap : (nextEvent s).2.pinmap = s.pinmap := by rw [nextEvent_block, State.withEnv_pinmap]
  have hseq : (nextEvent s).2.seq = s.seq := by rw [nextEvent_block, State.withEnv_seq]
  have hlife : (nextEvent s).2.life = s.life := by rw [nextEvent_block, State.withEnv_life]
  obtain ⟨c, w, hserve, hw, hstep⟩ | ⟨x, -, hstep⟩ | ⟨-, hstep⟩ := step_cases s
  · rw [hstep] at h
    obtain hsame | ⟨⟨v, hdec⟩, hfree, huninit, hsample⟩ := exec_pinmap h
    · exact .inl (hsame.trans hpinmap)
    · exact .inr (.inr ⟨c, v, hserve, ⟨w, hw, hdec⟩, hseq.symm.trans hfree, hlife.symm.trans huninit,
        hsample.trans (congrArg samplePins (nextEvent_cfgPin s))⟩)
  · rw [hstep] at h; cases h; exact .inl hpinmap
  · rw [hstep] at h
    by_cases hreset : (nextEvent s).1 = .reset
    · exact .inr (.inl hreset)
    · exact .inl ((perform_pinmap hreset h).trans hpinmap)

/-! ### Levels in a sound state -/

/-- A sound state in INIT's commit phase has every pin at the inactive level (R113). -/
theorem State.Inv.commitInit_inactive (hs : s.Inv) (hq : s.seq = some r) (hph : r.phase = .commitInit) (i : Slot) :
    s.out[i] = some s.inactive := by
  obtain ⟨hsound, -⟩ := hs.seqSound r hq
  rw [State.phaseSound, hph] at hsound
  obtain ⟨-, hslots⟩ := hsound
  exact (hslots i).2

end Lifecycle

/-! ### The statements -/

/-- Settles O30: the lifecycle chooses between BAD_STATE and the sampling, and every other step leaves PINMAP alone but a
reset (R112, R40). -/
theorem initAcquires : Obligations.InitAcquires := by
  refine ⟨fun s v hfree => ⟨fun hready => ?badState, fun huninit => ?samples⟩, samplePins_get,
    fun s t h hne => ?onlyWriter⟩
  case badState => rw [exec_init_free v hfree, initAcquire_ready hready]; rfl
  case samples => rw [exec_init_free v hfree, initAcquire_uninit huninit]
  case onlyWriter => exact (step_pinmap h).resolve_left hne

/-- Settles O33: the commit phase runs INIT's commit, and a sound state of that phase has every pin inactive already
(R115). -/
theorem initCommits : Obligations.InitCommits := by
  refine fun s v r hq hc hph => ⟨?commit, fun hs => hs.commitInit_inactive hq hph⟩
  case commit => rw [exec_init_mine v hq hc, initGo_commitInit hph]; rfl

/-- Settles O36: the lifecycle chooses between the no-op and the end of READY (R121). -/
theorem shutdownAcquires : Obligations.ShutdownAcquires := by
  refine fun s v hfree => ⟨fun huninit => ?noOp, fun hready => ?takesLock⟩
  case noOp => rw [exec_shutdown_free v hfree, shutdownAcquire_uninit huninit]; rfl
  case takesLock => rw [exec_shutdown_free v hfree, shutdownAcquire_ready hready]

/-- Settles O38: the release completes, and the slot after k decides whether SHUTDOWN goes on or answers (R123). -/
theorem shutdownReleases : Obligations.ShutdownReleases := by
  intro s v r k hq hc hk hph hpin howned
  rw [exec_shutdown_mine v hq hc, shutdownGo_release hph hk]
  refine ⟨fun hlast => ?last, fun k' hk' => ?below⟩
  case last => rw [shutdownRelease_last hpin howned (by rw [hlast]; rfl)]; rfl
  case below => rw [shutdownRelease_next hpin howned (nextSlot_eq_some hk')]; rfl

end Sys2Proof.Machine
end

section
/-! SUPPORT. SET_DIGIT by the state of the lock and GET_DIGIT by the lifecycle (R140, R150), and the statements of
GET_DIGIT's answer and of SET_DIGIT's acquisition and commit. -/

namespace Sys2Proof.Machine

open Sys2Proof

section Digit

variable {s : State} {r : SeqRec} {v : Value}

/-! ### GET_DIGIT, one equation per lifecycle state -/

/-- R150: on an UNINIT controller GET_DIGIT answers BAD_STATE. -/
theorem exec_getDigit_uninit (v : Value) (hl : s.life = .uninit) :
    exec (.getDigit v) s = .next (s.failWith s.active .badState 0) := by
  simp only [exec, execGetDigit, hl]

/-- R150: on a READY controller GET_DIGIT answers OK with the digit. -/
theorem exec_getDigit_ready {d : Digit} (v : Value) (hl : s.life = .ready) (hd : s.digit = some d) :
    exec (.getDigit v) s = .next (s.respond s.active .ok 0 d) := by
  simp only [exec, execGetDigit, hl, hd]

/-! ### SET_DIGIT, one equation per case of the lock, the lifecycle, the range or the phase -/

theorem exec_setDigit_free (v : Value) (hq : s.seq = none) : exec (.setDigit v) s = setAcquire v s :=
  withLock_free hq _ _

theorem exec_setDigit_mine (v : Value) (hq : s.seq = some r) (hc : r.caller = s.active) :
    exec (.setDigit v) s = setGo s r := withLock_mine hq hc _ _

theorem inRange_of_le (h : v.toNat ≤ 15) : inRange v = true := decide_eq_true h

theorem inRange_of_gt (h : 15 < v.toNat) : inRange v = false := decide_eq_false (Nat.not_le_of_gt h)

/-- R141: on an UNINIT controller SET_DIGIT's acquisition fails, whatever the value. -/
theorem setAcquire_uninit (v : Value) (hl : s.life = .uninit) :
    setAcquire v s = .next (s.failWith s.active .badState 0) := by
  simp only [setAcquire, hl]

/-- R141: on a READY controller a value above the range fails. -/
theorem setAcquire_aboveRange (hl : s.life = .ready) (hv : 15 < v.toNat) :
    setAcquire v s = .next (s.failWith s.active .invalidDigit 0) := by
  simp only [setAcquire, hl, inRange_of_gt hv, Bool.false_eq_true, if_false]

/-- R141: on a READY controller a value in range takes the lock. -/
theorem setAcquire_inRange (hl : s.life = .ready) (hv : v.toNat ≤ 15) :
    setAcquire v s =
      .next { s with sync := false,
                     seq := some { caller := s.active, phase := .clear (rom (lowDigit v)) (lowDigit v), k := 0 } } := by
  simp only [setAcquire, hl, inRange_of_le hv, if_true]

theorem setGo_commitSet {pat : Pattern} {val : Digit} (hph : r.phase = .commitSet pat val) :
    setGo s r = setCommit r val s := by
  simp only [setGo, hph]

end Digit

/-! ### The statements -/

/-- Settles O21: the lifecycle alone chooses between BAD_STATE and the digit, the lock is not read (R150). -/
theorem getDigitAnswers : Obligations.GetDigitAnswers := by
  refine fun s v => ⟨fun huninit => ?badState, fun d hready hdigit => ?answersDigit⟩
  case badState => rw [exec_getDigit_uninit v huninit]; rfl
  case answersDigit => rw [exec_getDigit_ready v hready hdigit]; rfl

/-- Settles O23: the lifecycle is checked first, then the range, and only a value that passes both takes the lock
(R141, R186). -/
theorem setDigitAcquires : Obligations.SetDigitAcquires := by
  refine fun s v hfree => ⟨fun huninit => ?badState, fun hready hgt => ?invalidDigit, fun hready hle => ?takesLock⟩
  case badState => rw [exec_setDigit_free v hfree, setAcquire_uninit v huninit]; rfl
  case invalidDigit => rw [exec_setDigit_free v hfree, setAcquire_aboveRange hready hgt]; rfl
  case takesLock => rw [exec_setDigit_free v hfree, setAcquire_inRange hready hle, lowDigit]

/-- Settles O27: the commit phase of the active caller's own operation runs SET_DIGIT's commit (R146). -/
theorem setDigitCommits : Obligations.SetDigitCommits := by
  intro s v r pat val hq hc hph
  rw [exec_setDigit_mine v hq hc, setGo_commitSet hph]
  rfl

end Sys2Proof.Machine
end

section
/-! SUPPORT. The round trip between operations and words (R70, R76, R78), and the statements of the encodings, of the
status codes and of program text. -/

namespace Sys2Proof

/-! ### Words and operations -/

/-- Encoding an operation and decoding its word gives the operation back: each row's op field chooses its row again. -/
theorem decode_encode (i : Instr) : decode (encode i) = i := by
  cases i with
  | getDigit v =>
    exact (decodeRequest_of_op_00 (opField_append 0b00#2 v)).trans
      (congrArg Instr.getDigit (valueField_append 0b00#2 v))
  | setDigit v =>
    exact (decodeRequest_of_op_01 (opField_append 0b01#2 v)).trans
      (congrArg Instr.setDigit (valueField_append 0b01#2 v))
  | init v =>
    exact (decodeRequest_of_op_10 (opField_append 0b10#2 v)).trans
      (congrArg Instr.init (valueField_append 0b10#2 v))
  | shutdown v =>
    exact (decodeRequest_of_op_11 (opField_append 0b11#2 v)).trans
      (congrArg Instr.shutdown (valueField_append 0b11#2 v))
  | encode x => rfl

theorem op_append_valueField {w : ReqWord} {op : BitVec 2} (h : opField w = op) : op ++ valueField w = w := by
  rw [← h, append_fields]

/-- Decoding a word and encoding the operation gives the word back: the operation keeps every value bit (R79). -/
theorem encode_decode (p : PortWord) : encode (decode p) = p := by
  cases p with
  | encoder x => rfl
  | request w =>
    obtain h | h | h | h := op_cases (opField w)
    · rw [decode, decodeRequest_of_op_00 h, encode, op_append_valueField h]
    · rw [decode, decodeRequest_of_op_01 h, encode, op_append_valueField h]
    · rw [decode, decodeRequest_of_op_10 h, encode, op_append_valueField h]
    · rw [decode, decodeRequest_of_op_11 h, encode, op_append_valueField h]

/-- Decoding a word's bytes is decoding the word (notes/assumptions/14.md). -/
theorem decodeBytes_bytes (p : PortWord) : decodeBytes p.bytes.1 p.bytes.2 = .ok (decode p) := by
  cases p with
  | encoder x => rfl
  | request w =>
    simp only [PortWord.bytes, decodeBytes]
    rw [if_pos (highBits_bytes w), requestOfBytes_bytes, decode]

/-- Settles O2: the byte carrier decodes as its word does, and every operation comes back from its word (R78). -/
theorem decodeOfEncodeIsInstr : Obligations.DecodeOfEncodeIsInstr := by
  intro i _
  refine ⟨decode_encode i, ?bytes⟩
  case bytes => rw [decodeBytes_bytes, decode_encode]

/-- Settles O3: the op field and the value field are the whole word, and the operation keeps both (R78, R79). -/
theorem encodeOfDecodeIsWord : Obligations.EncodeOfDecodeIsWord := encode_decode

/-- Settles O4: each word's op field is read off its top two bits, the operand off the rest. -/
theorem sampleWordsDecode : Obligations.SampleWordsDecode := ⟨rfl, rfl, rfl, rfl, rfl, rfl⟩

namespace Machine

/-- Settles O7: the codes are read off the definition, and the eight codes are checked one by one (R73, R79). -/
theorem statusCodesInUse : Obligations.StatusCodesInUse :=
  ⟨rfl, rfl, rfl, rfl, rfl, Status.ofCode_code, by decide⟩

/-! ### Program text -/

/-- A written operand that fits its eight bits is the same number in ten (R81). -/
theorem zeroExtend_ofNat {n : Nat} (h : n ≤ 255) : (BitVec.ofNat 8 n).zeroExtend 10 = BitVec.ofNat 10 n := by
  apply BitVec.eq_of_toNat_eq
  simp only [BitVec.truncate_eq_setWidth, BitVec.toNat_setWidth, BitVec.toNat_ofNat]
  omega

theorem opAct_set {n : Nat} (h : n ≤ 255) : opAct (.set n) = .request (0x100#10 ||| BitVec.ofNat 10 n) := by
  have hword := append_eq_match_or_value 0b01#2 (BitVec.ofNat 8 n)
  rw [zeroExtend_ofNat h] at hword
  exact congrArg Act.request hword

theorem assembleProgram_line {p : Params} {l : Line} (h : l.wellFormed p = true) :
    assembleProgram p [.line l] = some [.task { no := 1, caller := l.caller, act := opAct l.op }] := by
  simp only [assembleProgram, assemble, SourceItem.wellFormed, h, if_true, Option.map_some]

/-- Settles O59: the canonical words are R78's, SET's operand stands in the low bits, and a line is numbered 1 (R81). -/
theorem writtenOperationsAssemble : Obligations.WrittenOperationsAssemble :=
  ⟨rfl, rfl, rfl, fun _ hn => ⟨opAct_set hn, rfl⟩, fun _ _ hl => assembleProgram_line hl⟩

end Machine

end Sys2Proof
end

section
/-! SUPPORT. What an act fixed in advance runs (R8), and the statements about single steps that follow from it: what a
step runs, a placed word, a reset, the value bits, ENCODE, a request that waits. -/

namespace Sys2Proof.Machine

open Sys2Proof

section Acts

variable {s : State} {c : Nat} {rest : List Event}

/-- The state whose next acts are those. -/
def State.withActs (s : State) (rest : List Event) : State := s.withEnv { s.env with events := rest }

/-- An act fixed in advance is taken off the list and resolved. -/
theorem nextEvent_fixed {e : Event} (h : s.env.events = e :: rest) : nextEvent s = resolve e (s.withActs rest) := by
  simp only [nextEvent, h]
  rfl

/-- A step whose act runs no instruction is that act. -/
theorem step_perform {e : Event} {t : State} (hn : nextEvent s = (e, t)) (hf : fetch e t = none) :
    step s = perform e t := by
  simp only [step, hn, hf]

/-- A value on the encoder port: step is exec of ENCODE (R76). -/
theorem step_encode {x : Value} (h : s.env.events = .encode x :: rest) :
    step s = exec (.encode x) (s.withActs rest) := by
  simp only [step, nextEvent_fixed h, resolve, fetch, decodeEncoder]

/-- A reset: the state after reset, with the world outside as it is (R200, R202). -/
theorem step_reset (h : s.env.events = .reset :: rest) :
    step s = .next (State.resetWith s.params { s.env with events := rest }) :=
  step_perform (nextEvent_fixed h) rfl

/-- An act that serves a caller without a request outstanding changes nothing but that it is taken. -/
theorem step_serve_none (h : s.env.events = .serve c :: rest) (hw : Slots.get c s.pending = none) :
    step s = .next (s.withActs rest) :=
  step_perform (nextEvent_fixed h) (by simp only [fetch]; rw [show (s.withActs rest).pending = s.pending from rfl, hw])

/-! ### Issuing acts of a caller -/

/-- The state in which caller c's issuing act is performed: the act is taken and the number of its last line dropped. -/
def State.issuing (s : State) (c : Nat) (rest : List Event) : State := (s.withActs rest).unnumbered c

/-- A caller that may issue has its act performed (R29). -/
theorem step_issuing {e : Event} (h : s.env.events = e :: rest) (hc : callerIdle s c = true)
    (hresolve : ∀ t, resolve e t = (e, if callerIdle t c then t.unnumbered c else t)) (hfetch : ∀ t, fetch e t = none) :
    step s = perform e (s.issuing c rest) := by
  have hc' : callerIdle (s.withActs rest) c = true := hc
  refine step_perform ?_ (hfetch _)
  rw [nextEvent_fixed h, hresolve, if_pos hc', State.issuing]

theorem step_request_idle {w : ReqWord} (h : s.env.events = .request c w :: rest) (hc : callerIdle s c = true) :
    step s = .next ((s.issuing c rest).place c w) :=
  (step_issuing h hc (fun _ => rfl) (fun _ => rfl)).trans (congrArg _ (if_pos hc))

theorem step_writeAscii_idle {b : Byte} {bs : List Byte} (h : s.env.events = .writeAscii c b bs :: rest)
    (hc : callerIdle s c = true) : step s = .next (frontWrite c b (s.issuing c rest)) :=
  (step_issuing h hc (fun _ => rfl) (fun _ => rfl)).trans (congrArg _ (if_pos hc))

theorem step_readAscii_idle {via : FrontEnd} (h : s.env.events = .readAscii c via :: rest)
    (hc : callerIdle s c = true) : step s = .next (frontRead c via (s.issuing c rest)) :=
  (step_issuing h hc (fun _ => rfl) (fun _ => rfl)).trans (congrArg _ (if_pos hc))

theorem step_request_busy {w : ReqWord} (h : s.env.events = .request c w :: rest) (hc : callerIdle s c = false) :
    step s = .next (s.withActs rest) := by
  have hc' : ¬ callerIdle (s.withActs rest) c = true := ne_true_of_eq_false hc
  have hn : nextEvent s = (.request c w, s.withActs rest) := by rw [nextEvent_fixed h, resolve, if_neg hc']
  rw [step_perform hn rfl, perform, if_neg hc']

theorem step_collect (h : s.env.events = .collect c :: rest) : step s = frontCollect c (s.withActs rest) :=
  step_perform (nextEvent_fixed h) rfl

/-- A caller with a request outstanding may not issue (R29). -/
theorem callerIdle_eq_false (h : Slots.get c s.pending ≠ none) : callerIdle s c = false := by
  cases hc : callerIdle s c with
  | false => rfl
  | true => exact absurd (callerIdle_spec hc).2 h

end Acts

/-! ### A word where the step takes it -/

/-- The bytes in which a host numbers a request word are the word's own bytes (notes/assumptions/14.md). -/
theorem bytes_request_ofNat {w : Nat} (h : w < 1024) :
    (PortWord.request (BitVec.ofNat 10 w)).bytes = (.request, [BitVec.ofNat 8 w, BitVec.ofNat 8 (w / 256)]) := by
  have hlow : (BitVec.ofNat 10 w).extractLsb' 0 8 = BitVec.ofNat 8 w := by
    apply BitVec.eq_of_toNat_eq
    simp only [BitVec.extractLsb'_toNat, BitVec.toNat_ofNat]
    omega
  have hhigh : (0#6 ++ (BitVec.ofNat 10 w).extractLsb' 8 2 : BitVec 8) = BitVec.ofNat 8 (w / 256) := by
    apply BitVec.eq_of_toNat_eq
    simp only [BitVec.toNat_append, BitVec.extractLsb'_toNat, BitVec.toNat_ofNat, Nat.zero_mod, Nat.zero_shiftLeft,
      Nat.zero_or, Nat.shiftRight_eq_div_pow]
    omega
  rw [PortWord.bytes, hlow, hhigh]

theorem decodeTableWord_request {w : Nat} (h : w < 1024) :
    decodeTableWord 16 w = some (decodeRequest (BitVec.ofNat 10 w)) := by
  have hbytes := decodeBytes_bytes (.request (BitVec.ofNat 10 w))
  rw [bytes_request_ofNat h] at hbytes
  rw [decodeTableWord, if_neg (by decide), if_pos (by omega), hbytes]
  rfl

theorem decodeTableWord_encoder {w : Nat} (h : w < 256) : decodeTableWord 8 w = some (.encode (BitVec.ofNat 8 w)) := by
  rw [decodeTableWord, if_pos (by decide), if_pos h]
  rfl

/-! ### The statements -/

/-- Settles O8: the act that is taken decides what the step runs (R8, R76, R78). -/
theorem stepRunsDecodedInstr : Obligations.StepRunsDecodedInstr :=
  fun _ _ => ⟨fun _ _ h hw => step_serve h hw, fun _ h => step_encode h⟩

/-- Settles O9: the placed word is what the next act serves or drives, and its bytes decode as it does. -/
theorem placedWordRunsNext : Obligations.PlacedWordRunsNext := by
  refine fun s w => ⟨fun hw => ?request, fun hw => ?encoder⟩
  case request =>
    have hrun : step (s.withFetchWord 16 w) = exec (decodeRequest (BitVec.ofNat 10 w)) _ :=
      step_serve (c := 0) (rest := s.env.events) rfl (Slots.get_set_self 0 (BitVec.ofNat 10 w) s.pending)
    exact ⟨_, hrun, rfl, rfl, Slots.get_set_self 0 (BitVec.ofNat 10 w) s.pending, rfl, rfl, decodeTableWord_request hw⟩
  case encoder => exact ⟨step_encode (rest := s.env.events) rfl, decodeTableWord_encoder hw⟩

/-- Settles O10: a caller's act is performed when it may issue, and one with a request outstanding may not (R29). -/
theorem requestIsIssuedOnce : Obligations.RequestIsIssuedOnce := by
  refine fun s c w rest h => ⟨fun hc => ?issues, fun hpending => ?waits⟩
  case issues =>
    refine ⟨_, step_request_idle h hc, Slots.get_set_self _ _ _, Slots.get_erase_self _ _, fun d hd => ⟨?pending, ?rsp⟩,
      rfl, rfl, rfl, rfl, rfl, rfl, rfl, rfl, rfl⟩
    case pending => exact (Slots.get_set c d w s.pending).trans (if_neg hd)
    case rsp => exact (Slots.get_erase c d s.rsp).trans (if_neg hd)
  case waits => exact step_request_busy h (callerIdle_eq_false hpending)

/-- Settles O13: a reset act is performed whatever is in flight (R202). -/
theorem resetAbandonsOperation : Obligations.ResetAbandonsOperation :=
  fun _ _ h => ⟨step_reset h, fun _ => rfl⟩

/-- Settles O5: the meanings of the three operations do not read their value (R79). -/
theorem valueBitsIgnored : Obligations.ValueBitsIgnored := fun _ _ _ => ⟨rfl, rfl, rfl⟩

/-- The ROM's entries are all different (R102). -/
theorem rom_injective {d e : Digit} (h : rom d = rom e) : d = e := by
  revert d e
  decide

/-- Settles O16: no pattern stands twice in the ROM, and ENCODE reads its operand alone (R102). -/
theorem encodeIsOneToOne : Obligations.EncodeIsOneToOne := by
  refine ⟨fun _ _ => rom_injective, fun x s s' t t' h h' => ?same⟩
  case same =>
    rw [exec_encode] at h h'
    cases h
    cases h'
    rfl

/-- Settles O22: on a READY controller GET_DIGIT reads DIGIT, and none is no digit (R201). -/
theorem getDigitOfNoneStops : Obligations.GetDigitOfNoneStops := by
  intro s v hlife hdigit
  simp only [exec, execGetDigit, hlife, hdigit]

/-- Settles O40: each of the three operations asks for the lock first (R64). -/
theorem lockHeldRequestsWait : Obligations.LockHeldRequestsWait :=
  fun _ _ _ hq hc => ⟨withLock_waits hq hc _ _, withLock_waits hq hc _ _, withLock_waits hq hc _ _⟩

/-- Settles O50: the invariant is kept by every micro-step, by GET_DIGIT, ENCODE and every other act. -/
theorem stepKeepsInvariant : Obligations.StepKeepsInvariant := fun _ _ hs h => step_inv hs h

/-- Settles O51: State.reset is the reset state of an environment that has numbered no operation (R40). -/
theorem resetIsSound : Obligations.ResetIsSound := resetWith_inv Config.params rfl

end Sys2Proof.Machine
end

section
/-! SUPPORT. The GPIO primitives and the pin phases, one equation per case (R55, R56, R113 to R116, R122, R142 to R144),
and the statements about them. -/

namespace Sys2Proof.Machine

open Sys2Proof

section Primitives

variable {s : State} {c : Nat} {ph : WritePhase} {k : Slot} {l : Level} {e : Env}

/-! ### The primitives -/

theorem owned_set_self {owned : PerSlot Bool} (h : owned[k] = true) : owned.set k true = owned := by
  rw [← h]
  exact Vector.set_getElem_self k.isLt

/-- R55: a write that succeeds changes OUT at its slot alone. -/
theorem gpioWrite_ok (hpin : s.pinmap[k] ≠ none) (howned : s.owned[k] = true)
    (h : s.env.takeWrite c ph k = (.ok, e)) :
    gpioWrite c ph k l s = .ok (.ok, { s with env := e, out := s.out.set k (some l) }) := by
  obtain ⟨p, hp⟩ := Option.ne_none_iff_exists'.mp hpin
  simp only [gpioWrite, hp, howned, if_true, h, State.withEnv, State.withPin, owned_set_self howned]

/-- R55, R30: a write that fails leaves a drawn level at its slot and clears SYNC. -/
theorem gpioWrite_fail (hpin : s.pinmap[k] ≠ none) (howned : s.owned[k] = true)
    (h : s.env.takeWrite c ph k = (.fail, e)) :
    gpioWrite c ph k l s =
      .ok (.fail, { s with env := e.takeDraw.2, out := s.out.set k (some e.takeDraw.1), sync := false }) := by
  obtain ⟨p, hp⟩ := Option.ne_none_iff_exists'.mp hpin
  simp only [gpioWrite, hp, howned, if_true, h, State.withEnv, State.withPin, owned_set_self howned]

theorem gpioWrite_unmapped (hpin : s.pinmap[k] = none) : gpioWrite c ph k l s = .error (.pinmapNone k) := by
  simp only [gpioWrite, hpin]

theorem gpioWrite_unowned (hpin : s.pinmap[k] ≠ none) (howned : s.owned[k] = false) :
    gpioWrite c ph k l s = .error (.slotNotOwned k) := by
  obtain ⟨p, hp⟩ := Option.ne_none_iff_exists'.mp hpin
  simp only [gpioWrite, hp, howned, Bool.false_eq_true, if_false]

/-- R56: a pin is taken when another owned slot has it. -/
theorem pinTaken_iff {p : PinId} :
    pinTaken s k p = true ↔ ∃ j : Slot, j ≠ k ∧ s.owned[j] = true ∧ s.pinmap[j] = some p := by
  simp only [pinTaken, List.any_eq_true, mem_allSlots, true_and, Bool.and_eq_true, bne_iff_ne, beq_iff_eq, and_assoc]

theorem pinTaken_eq_false {p : PinId} (h : ∀ j : Slot, j ≠ k → s.owned[j] = true → s.pinmap[j] ≠ some p) :
    pinTaken s k p = false := by
  rw [← Bool.not_eq_true, pinTaken_iff]
  rintro ⟨j, hj, howned, hpin⟩
  exact h j hj howned hpin

/-- R56: a claim of a pin that is taken fails, and uses up a directive for its slot (R82). -/
theorem gpioClaim_forced {p : PinId} (hp : s.pinmap[k] = some p) (h : pinTaken s k p = true) :
    gpioClaim k l s = .ok (.fail, { s with env := s.env.spend (.claimFail k) }) := by
  simp only [gpioClaim, hp, h, if_true, State.withEnv]

/-- R56: a claim that is granted owns its slot and drives it. -/
theorem gpioClaim_ok {p : PinId} (hp : s.pinmap[k] = some p) (hfree : pinTaken s k p = false)
    (h : s.env.takeClaim k = (.ok, e)) :
    gpioClaim k l s = .ok (.ok, { s with env := e, owned := s.owned.set k true, out := s.out.set k (some l) }) := by
  simp only [gpioClaim, hp, hfree, Bool.false_eq_true, if_false, h, State.withEnv, State.withPin]

/-- R56: a claim that the environment fails changes nothing of the block. -/
theorem gpioClaim_fail {p : PinId} (hp : s.pinmap[k] = some p) (hfree : pinTaken s k p = false)
    (h : s.env.takeClaim k = (.fail, e)) : gpioClaim k l s = .ok (.fail, { s with env := e }) := by
  simp only [gpioClaim, hp, hfree, Bool.false_eq_true, if_false, h, State.withEnv]

theorem gpioClaim_unmapped (hpin : s.pinmap[k] = none) : gpioClaim k l s = .error (.pinmapNone k) := by
  simp only [gpioClaim, hpin]

theorem gpioRelease_unmapped (hpin : s.pinmap[k] = none) : gpioRelease k s = .error (.pinmapNone k) := by
  simp only [gpioRelease, hpin]

theorem gpioRelease_unowned (hpin : s.pinmap[k] ≠ none) (howned : s.owned[k] = false) :
    gpioRelease k s = .error (.slotNotOwned k) := by
  obtain ⟨p, hp⟩ := Option.ne_none_iff_exists'.mp hpin
  simp only [gpioRelease, hp, howned, Bool.false_eq_true, if_false]

/-- A primitive that stops stops its micro-step. -/
theorem afterPin_error {p : Except Fault (GpioAnswer × State)} {x : Fault} (h : p = .error x)
    (f : GpioAnswer → State → Result) : afterPin p f = .fault x := by
  rw [h, afterPin]

theorem afterRelease_error {p : Except Fault State} {x : Fault} (h : p = .error x) (f : State → State) :
    afterRelease p f = .fault x := by
  rw [h, afterRelease]

/-- Settles O17: one equation for each answer (R55). -/
theorem writeSetsOneSlot : Obligations.WriteSetsOneSlot :=
  fun _ _ _ _ _ _ hpin howned => ⟨gpioWrite_ok hpin howned, gpioWrite_fail hpin howned⟩

/-- Settles O18: whether another owned slot has the pin is what pinTaken computes; the environment answers only when
none has (R56). -/
theorem claimOwnsOneSlot : Obligations.ClaimOwnsOneSlot := by
  refine fun s k l p e hp => ⟨fun htaken => ?forced, fun hfree => ⟨fun h => ?ok, fun h => ?fail⟩⟩
  case forced => exact gpioClaim_forced hp (pinTaken_iff.mpr htaken)
  case ok => exact gpioClaim_ok hp (pinTaken_eq_false hfree) h
  case fail => exact gpioClaim_fail hp (pinTaken_eq_false hfree) h

end Primitives

/-! ### Which slot comes next -/

section NextSlots

variable {k j : Slot} {pat : Pattern}

theorem nextSlot_six : nextSlot 6 = none := rfl

theorem prevSlot_zero : prevSlot 0 = none := rfl

theorem prevSlot_eq_some (h : k.val = j.val + 1) : prevSlot k = some j := by
  have hk : k.val ≠ 0 := by omega
  rw [prevSlot, if_neg hk, Option.some.injEq, Fin.ext_iff]
  exact Nat.sub_eq_of_eq_add h

/-- An empty pattern alone has no first lit slot (R142). -/
theorem firstLit_none (h : firstLit pat = none) (i : Slot) : segBit pat i = false := by
  simpa using List.find?_eq_none.mp h i (mem_allSlots i)

theorem firstLit_zero : firstLit 0 = none := by decide

/-- The first lit slot is the one that is lit with none below it (R142). -/
theorem firstLit_eq_some (hlit : segBit pat j = true) (hbelow : ∀ i : Slot, i < j → segBit pat i = false) :
    firstLit pat = some j := by
  cases h : firstLit pat with
  | none => rw [firstLit_none h j] at hlit; cases hlit
  | some j' =>
    obtain ⟨hlit', hbelow'⟩ := firstLit_some h
    obtain hlt | rfl | hgt := lt_trichotomy j j'
    · rw [hbelow' j hlt] at hlit; cases hlit
    · rfl
    · rw [hbelow j' hgt] at hlit'; cases hlit'

/-- There is no next lit slot when none above is lit (R143). -/
theorem nextLit_eq_none (h : ∀ i : Slot, k < i → segBit pat i = false) : nextLit pat k = none := by
  cases hn : nextLit pat k with
  | none => rfl
  | some j =>
    obtain ⟨hlit, hkj, -⟩ := nextLit_some hn
    rw [h j hkj] at hlit; cases hlit

/-- The next lit slot is the one above that is lit with none between (R143). -/
theorem nextLit_eq_some (hkj : k < j) (hlit : segBit pat j = true)
    (hgap : ∀ i : Slot, k < i → i < j → segBit pat i = false) : nextLit pat k = some j := by
  cases h : nextLit pat k with
  | none => rw [nextLit_none h j hkj] at hlit; cases hlit
  | some j' =>
    obtain ⟨hlit', hkj', hgap'⟩ := nextLit_some h
    obtain hlt | rfl | hgt := lt_trichotomy j j'
    · rw [hgap' j hkj hlt] at hlit; cases hlit
    · rfl
    · rw [hgap j' hkj' hgt] at hlit'; cases hlit'

end NextSlots

/-! ### Where the sequencer goes after a claim or write -/

/-- SEQ after a clear write of slot k (R142). -/
def SeqRec.afterClear (r : SeqRec) (k : Slot) (pat : Pattern) (val : Digit) : SeqRec :=
  match nextSlot k with
  | some k' => { r with k := slotIndex k' }
  | none =>
    match firstLit pat with
    | none => { r with phase := .commitSet pat val }
    | some k' => { r with phase := .setOn pat val, k := slotIndex k' }

/-- SEQ after a set write of slot k (R143). -/
def SeqRec.afterSetOn (r : SeqRec) (k : Slot) (pat : Pattern) (val : Digit) : SeqRec :=
  match nextLit pat k with
  | some k' => { r with k := slotIndex k' }
  | none => { r with phase := .commitSet pat val }

/-- SEQ after a claim of slot k (R113). -/
def SeqRec.afterClaim (r : SeqRec) (k : Slot) : SeqRec :=
  match nextSlot k with
  | some k' => { r with k := slotIndex k' }
  | none => { r with phase := .commitInit }

/-- SEQ after an inactive write of slot k (R122). -/
def SeqRec.afterOff (r : SeqRec) (k : Slot) : SeqRec :=
  match nextSlot k with
  | some k' => { r with k := slotIndex k' }
  | none => { r with phase := .release, k := 0 }

section After

variable {r : SeqRec} {k k' : Slot} {pat : Pattern} {val : Digit}

theorem SeqRec.afterClear_next (h : k'.val = k.val + 1) :
    r.afterClear k pat val = { r with k := slotIndex k' } := by
  rw [afterClear, nextSlot_eq_some h]

theorem SeqRec.afterClear_empty (hk : k = 6) (hpat : pat = 0) :
    r.afterClear k pat val = { r with phase := .commitSet pat val } := by
  rw [afterClear, hk, nextSlot_six, hpat, firstLit_zero]

theorem SeqRec.afterClear_light (hk : k = 6) (hfirst : firstLit pat = some k') :
    r.afterClear k pat val = { r with phase := .setOn pat val, k := slotIndex k' } := by
  rw [afterClear, hk, nextSlot_six, hfirst]

theorem SeqRec.afterSetOn_next (h : nextLit pat k = some k') :
    r.afterSetOn k pat val = { r with k := slotIndex k' } := by
  rw [afterSetOn, h]

theorem SeqRec.afterSetOn_last (h : nextLit pat k = none) :
    r.afterSetOn k pat val = { r with phase := .commitSet pat val } := by
  rw [afterSetOn, h]

theorem SeqRec.afterClaim_next (h : k'.val = k.val + 1) : r.afterClaim k = { r with k := slotIndex k' } := by
  rw [afterClaim, nextSlot_eq_some h]

theorem SeqRec.afterClaim_last (hk : k = 6) : r.afterClaim k = { r with phase := .commitInit } := by
  rw [afterClaim, hk, nextSlot_six]

theorem SeqRec.afterOff_next (h : k'.val = k.val + 1) : r.afterOff k = { r with k := slotIndex k' } := by
  rw [afterOff, nextSlot_eq_some h]

theorem SeqRec.afterOff_last (hk : k = 6) : r.afterOff k = { r with phase := .release, k := 0 } := by
  rw [afterOff, hk, nextSlot_six]

end After

/-! ### The pin phases -/

section Phases

variable {s : State} {r : SeqRec} {k k' : Slot} {pat : Pattern} {val : Digit} {err : Slot} {e : Env} {p : PinId}

/-! The micro-step each phase runs (R110, R120, R140). -/

theorem exec_clear (v : Value) (hq : s.seq = some r) (hc : r.caller = s.active) (hph : r.phase = .clear pat val) :
    exec (.setDigit v) s = atSlot r fun k => setClear r k pat val s := by
  rw [exec_setDigit_mine v hq hc, setGo, hph]

theorem exec_setOn (v : Value) (hq : s.seq = some r) (hc : r.caller = s.active) (hph : r.phase = .setOn pat val) :
    exec (.setDigit v) s = atSlot r fun k => setSetOn r k pat val s := by
  rw [exec_setDigit_mine v hq hc, setGo, hph]

theorem exec_claim (v : Value) (hq : s.seq = some r) (hc : r.caller = s.active) (hph : r.phase = .claim) :
    exec (.init v) s = atSlot r fun k => initClaim r k s := by
  rw [exec_init_mine v hq hc, initGo, hph]

theorem exec_unwind (v : Value) (hq : s.seq = some r) (hc : r.caller = s.active) (hph : r.phase = .unwind err) :
    exec (.init v) s = atSlot r fun k => initUnwind r k err s := by
  rw [exec_init_mine v hq hc, initGo, hph]

theorem exec_off (v : Value) (hq : s.seq = some r) (hc : r.caller = s.active) (hph : r.phase = .off) :
    exec (.shutdown v) s = atSlot r fun k => shutdownOff r k s := by
  rw [exec_shutdown_mine v hq hc, shutdownGo, hph]

theorem exec_release (v : Value) (hq : s.seq = some r) (hc : r.caller = s.active) (hph : r.phase = .release) :
    exec (.shutdown v) s = atSlot r fun k => shutdownRelease r k s := by
  rw [exec_shutdown_mine v hq hc, shutdownGo, hph]

/-- R28, R52: SEQ.k = 7 names no slot. -/
theorem atSlot_seven (h : r.k = 7) (f : Slot → Result) : atSlot r f = .fault .noSlot := by
  rw [atSlot, h]
  rfl

/-! Each micro-step at its slot, by the environment's answer. -/

/-- R142: a clear write that succeeds. -/
theorem setClear_ok (hpin : s.pinmap[k] ≠ none) (howned : s.owned[k] = true)
    (h : s.env.takeWrite r.caller .clear k = (.ok, e)) :
    setClear r k pat val s =
      .next { s with env := e, out := s.out.set k (some (!s.params.activeLevel)),
                     seq := some (r.afterClear k pat val) } := by
  rw [setClear, gpioWrite_ok hpin howned h, afterPin, SeqRec.afterClear]
  dsimp only
  cases nextSlot k with
  | some k' => rfl
  | none =>
    cases firstLit pat with
    | none => rfl
    | some k' => rfl

/-- R143: a set write that succeeds. -/
theorem setSetOn_ok (hpin : s.pinmap[k] ≠ none) (howned : s.owned[k] = true)
    (h : s.env.takeWrite r.caller .setOn k = (.ok, e)) :
    setSetOn r k pat val s =
      .next { s with env := e, out := s.out.set k (some s.params.activeLevel),
                     seq := some (r.afterSetOn k pat val) } := by
  rw [setSetOn, gpioWrite_ok hpin howned h, afterPin, SeqRec.afterSetOn]
  dsimp only
  cases nextLit pat k with
  | some k' => rfl
  | none => rfl

/-- What a SET_DIGIT whose write of slot k fails leaves (R144): ph is the phase bit of its info. -/
def State.writeFailed (s : State) (r : SeqRec) (ph : Bool) (k : Slot) (e : Env) : State :=
  { s with env := e.takeDraw.2, out := s.out.set k (some e.takeDraw.1), sync := false, seq := none,
           pending := Slots.erase r.caller s.pending,
           rsp := Slots.set r.caller (rspWord .hardwareWriteError (slotInfo ph k) 0) s.rsp }

/-- R144: a clear write that fails. -/
theorem setClear_fail (hpin : s.pinmap[k] ≠ none) (howned : s.owned[k] = true)
    (h : s.env.takeWrite r.caller .clear k = (.fail, e)) :
    setClear r k pat val s = .next (s.writeFailed r false k e) := by
  rw [setClear, gpioWrite_fail hpin howned h]
  rfl

/-- R144: a set write that fails. -/
theorem setSetOn_fail (hpin : s.pinmap[k] ≠ none) (howned : s.owned[k] = true)
    (h : s.env.takeWrite r.caller .setOn k = (.fail, e)) :
    setSetOn r k pat val s = .next (s.writeFailed r true k e) := by
  rw [setSetOn, gpioWrite_fail hpin howned h]
  rfl

/-- R113: a claim that is granted. -/
theorem initClaim_ok (hp : s.pinmap[k] = some p) (hfree : pinTaken s k p = false) (h : s.env.takeClaim k = (.ok, e)) :
    initClaim r k s =
      .next { s with env := e, owned := s.owned.set k true, out := s.out.set k (some (!s.params.activeLevel)),
                     seq := some (r.afterClaim k) } := by
  rw [initClaim, gpioClaim_ok hp hfree h, afterPin, SeqRec.afterClaim]
  dsimp only
  cases nextSlot k with
  | some k' => rfl
  | none => rfl

/-- R114: a claim that fails, forced or not, in the environment that has answered. -/
theorem initClaim_fail (h : gpioClaim k s.inactive s = .ok (.fail, { s with env := e })) :
    initClaim r k s = .next (initClaimFailed r k { s with env := e }) := by
  rw [initClaim, h, afterPin]

theorem initClaimFailed_first (hk : k = 0) :
    initClaimFailed r k s = (s.withSeq none).failWith r.caller .initError 0 := by
  rw [hk, initClaimFailed, prevSlot_zero]
  rfl

theorem initClaimFailed_above (hk : k.val = k'.val + 1) :
    initClaimFailed r k s = s.withSeq (some { r with phase := .unwind k, k := slotIndex k' }) := by
  rw [initClaimFailed, prevSlot_eq_some hk]

/-- R116: the last unwinding release. -/
theorem initUnwind_last (hpin : s.pinmap[k] ≠ none) (howned : s.owned[k] = true) (hk : k = 0) :
    initUnwind r k err s =
      .next (((s.withPin k false none).withSeq none).failWith r.caller .initError (slotInfo false err)) := by
  subst hk
  rw [initUnwind, gpioRelease_completes hpin howned, afterRelease, prevSlot_zero]

/-- R116: an unwinding release that is not the last. -/
theorem initUnwind_next (hpin : s.pinmap[k] ≠ none) (howned : s.owned[k] = true) (hk : k.val = k'.val + 1) :
    initUnwind r k err s = .next ((s.withPin k false none).withSeq (some { r with k := slotIndex k' })) := by
  rw [initUnwind, gpioRelease_completes hpin howned, afterRelease, prevSlot_eq_some hk]

/-- R122: an inactive write that succeeds. -/
theorem shutdownOff_ok (hpin : s.pinmap[k] ≠ none) (howned : s.owned[k] = true)
    (h : s.env.takeWrite r.caller .off k = (.ok, e)) :
    shutdownOff r k s =
      .next { s with env := e, out := s.out.set k (some (!s.params.activeLevel)), seq := some (r.afterOff k) } := by
  rw [shutdownOff, gpioWrite_ok hpin howned h, afterPin, SeqRec.afterOff]
  cases nextSlot k with
  | some k' => rfl
  | none => rfl

/-- R122, R30: an inactive write that fails goes on too. -/
theorem shutdownOff_fail (hpin : s.pinmap[k] ≠ none) (howned : s.owned[k] = true)
    (h : s.env.takeWrite r.caller .off k = (.fail, e)) :
    shutdownOff r k s =
      .next { s with env := e.takeDraw.2, out := s.out.set k (some e.takeDraw.1), sync := false,
                     seq := some (r.afterOff k) } := by
  rw [shutdownOff, gpioWrite_fail hpin howned h, afterPin, SeqRec.afterOff]
  cases nextSlot k with
  | some k' => rfl
  | none => rfl

end Phases

/-! ### The statements -/

/-- Settles O20: each phase's micro-step is its primitive at the slot SEQ.k names, and stops where the primitive does
(R13, R28, R55, R58). -/
theorem pinMicroStepsStop : Obligations.PinMicroStepsStop := by
  refine fun s r v hq hc => ⟨fun h7 => ?noSlot, fun k hk => ⟨fun hpin => ?noPin, fun hpin hown => ?notOwned⟩⟩
  case noSlot =>
    exact ⟨fun h => (exec_claim v hq hc h).trans (atSlot_seven h7 _),
      fun _ h => (exec_unwind v hq hc h).trans (atSlot_seven h7 _),
      fun _ _ h => (exec_clear v hq hc h).trans (atSlot_seven h7 _),
      fun _ _ h => (exec_setOn v hq hc h).trans (atSlot_seven h7 _),
      fun h => (exec_off v hq hc h).trans (atSlot_seven h7 _),
      fun h => (exec_release v hq hc h).trans (atSlot_seven h7 _)⟩
  case noPin =>
    have at_k : ∀ f : Slot → Result, atSlot r f = f k := atSlot_of hk
    exact ⟨fun h => (exec_claim v hq hc h).trans ((at_k _).trans (afterPin_error (gpioClaim_unmapped hpin) _)),
      fun _ h => (exec_unwind v hq hc h).trans ((at_k _).trans (afterRelease_error (gpioRelease_unmapped hpin) _)),
      fun _ _ h => (exec_clear v hq hc h).trans ((at_k _).trans (afterPin_error (gpioWrite_unmapped hpin) _)),
      fun _ _ h => (exec_setOn v hq hc h).trans ((at_k _).trans (afterPin_error (gpioWrite_unmapped hpin) _)),
      fun h => (exec_off v hq hc h).trans ((at_k _).trans (afterPin_error (gpioWrite_unmapped hpin) _)),
      fun h => (exec_release v hq hc h).trans ((at_k _).trans (afterRelease_error (gpioRelease_unmapped hpin) _))⟩
  case notOwned =>
    have at_k : ∀ f : Slot → Result, atSlot r f = f k := atSlot_of hk
    exact ⟨fun _ h =>
        (exec_unwind v hq hc h).trans ((at_k _).trans (afterRelease_error (gpioRelease_unowned hpin hown) _)),
      fun _ _ h => (exec_clear v hq hc h).trans ((at_k _).trans (afterPin_error (gpioWrite_unowned hpin hown) _)),
      fun _ _ h => (exec_setOn v hq hc h).trans ((at_k _).trans (afterPin_error (gpioWrite_unowned hpin hown) _)),
      fun h => (exec_off v hq hc h).trans ((at_k _).trans (afterPin_error (gpioWrite_unowned hpin hown) _)),
      fun h => (exec_release v hq hc h).trans ((at_k _).trans (afterRelease_error (gpioRelease_unowned hpin hown) _))⟩

/-- Settles O24: SEQ after a clear write is SeqRec.afterClear, read off in its three cases (R142). -/
theorem setDigitClears : Obligations.SetDigitClears := by
  intro s v r k pat val e hq hc hk hph hpin howned hans
  refine ⟨r.afterClear k pat val, ?step, fun _ => SeqRec.afterClear_next, SeqRec.afterClear_empty,
    fun h6 j hlit hbelow => SeqRec.afterClear_light h6 (firstLit_eq_some hlit hbelow)⟩
  case step => rw [exec_clear v hq hc hph, atSlot_of hk, setClear_ok hpin howned hans]

/-- Settles O25: SEQ after a set write is SeqRec.afterSetOn, read off in its two cases (R143). -/
theorem setDigitLights : Obligations.SetDigitLights := by
  intro s v r k pat val e hq hc hk hph hpin howned hans
  refine ⟨r.afterSetOn k pat val, ?step,
    fun j hkj hlit hgap => SeqRec.afterSetOn_next (nextLit_eq_some hkj hlit hgap),
    fun hdark => SeqRec.afterSetOn_last (nextLit_eq_none hdark)⟩
  case step => rw [exec_setOn v hq hc hph, atSlot_of hk, setSetOn_ok hpin howned hans]

/-- Settles O26: in either phase a write that fails ends the operation, with the phase bit in its info (R144). -/
theorem setDigitWriteFails : Obligations.SetDigitWriteFails := by
  refine fun s v r k pat val e hq hc hk hpin howned => ⟨fun hph hans => ?clear, fun hph hans => ?setOn⟩
  case clear => exact (exec_clear v hq hc hph).trans ((atSlot_of hk _).trans (setClear_fail hpin howned hans))
  case setOn => exact (exec_setOn v hq hc hph).trans ((atSlot_of hk _).trans (setSetOn_fail hpin howned hans))

/-- Settles O28: the phase's invariant says that the pins drive the digit's pattern already; the commit names it
(R192, R41.5). -/
theorem setDigitCommitShowsDigit : Obligations.SetDigitCommitShowsDigit := by
  intro s t v r pat val hs hq hc hph h
  have hsound := (hs.busy hq).phase
  rw [State.phaseSound, hph] at hsound
  obtain ⟨-, hpat, hdrives⟩ := hsound
  rw [exec_setDigit_mine v hq hc, setGo_commitSet hph] at h
  cases h
  exact ⟨rfl, hpat ▸ hdrives⟩

/-- Settles O31: SEQ after a claim is SeqRec.afterClaim, read off in its two cases (R113). -/
theorem initClaims : Obligations.InitClaims := by
  intro s v r k p e hq hc hk hph hp hfree hans
  refine ⟨r.afterClaim k, ?step, fun _ => SeqRec.afterClaim_next, SeqRec.afterClaim_last⟩
  case step => rw [exec_claim v hq hc hph, atSlot_of hk, initClaim_ok hp (pinTaken_eq_false hfree) hans]

/-- Settles O32: both causes of failure leave the same block, and the slot decides between the end and the unwinding
(R56, R114). -/
theorem initClaimFails : Obligations.InitClaimFails := by
  intro s v r k p e hq hc hk hph hp hcause
  have hclaim : gpioClaim k s.inactive s = .ok (.fail, { s with env := e }) := by
    obtain ⟨htaken, rfl⟩ | ⟨hfree, hans⟩ := hcause
    · exact gpioClaim_forced hp (pinTaken_iff.mpr htaken)
    · exact gpioClaim_fail hp (pinTaken_eq_false hfree) hans
  rw [exec_claim v hq hc hph, atSlot_of hk, initClaim_fail hclaim]
  refine ⟨fun hfirst => ?first, fun k' hk' => ?above⟩
  case first => rw [initClaimFailed_first hfirst]; rfl
  case above => rw [initClaimFailed_above hk']; rfl

/-- Settles O34: the slot decides whether the unwinding goes on or answers (R116). -/
theorem initUnwinds : Obligations.InitUnwinds := by
  intro s v r k err hq hc hk hph hpin howned
  rw [exec_unwind v hq hc hph, atSlot_of hk]
  refine ⟨fun hfirst => ?last, fun k' hk' => ?above⟩
  case last => rw [initUnwind_last hpin howned hfirst]; rfl
  case above => rw [initUnwind_next hpin howned hk']; rfl

/-- Settles O37: SEQ after an inactive write is SeqRec.afterOff whatever the answer was (R122). -/
theorem shutdownWritesInactive : Obligations.ShutdownWritesInactive := by
  intro s v r k a e hq hc hk hph hpin howned hans
  refine ⟨r.afterOff k, ?step, fun _ => SeqRec.afterOff_next, SeqRec.afterOff_last⟩
  case step =>
    rw [exec_off v hq hc hph, atSlot_of hk]
    cases a with
    | ok => exact shutdownOff_ok hpin howned hans
    | fail => exact shutdownOff_fail hpin howned hans

end Sys2Proof.Machine
end

section
/-! SUPPORT. What one micro-step of SET_DIGIT, INIT or SHUTDOWN can do, said once (MicroStep), what follows from it case
by case, and the statements of the three frames. -/

namespace Sys2Proof.Machine

open Sys2Proof

/-! ### The cases of a micro-step -/

/-- u is s after a claim, a write or a release of slot k: OWNED and OUT differ there alone (R55, R56, R58). -/
structure State.PinStep (s u : State) (k : Slot) : Prop where
  world   : s.sameWorld u
  digit   : u.digit = s.digit
  pinmap  : u.pinmap = s.pinmap
  life    : u.life = s.life
  pending : u.pending = s.pending
  rsp     : u.rsp = s.rsp
  owned   : ∀ i : Slot, i ≠ k → u.owned[i] = s.owned[i]
  out     : ∀ i : Slot, i ≠ k → u.out[i] = s.out[i]

/-- The operation r leaves u as t: it goes on with fewer micro-steps left, or frees the lock and answers. -/
inductive SeqRec.Leaves (r : SeqRec) (u : State) : State → Prop
  | goesOn (q : SeqRec) (hcaller : q.caller = r.caller) (hleft : q.stepsLeft < r.stepsLeft) :
      SeqRec.Leaves r u (u.withSeq (some q))
  | ends (st : Status) (info : BitVec 4) : SeqRec.Leaves r u ((u.withSeq none).respond r.caller st info 0)

/-- u is s after an acquisition has written all but SEQ (R112, R121, R141). -/
def State.Acquired (s : State) (u : State) : SeqKind → Prop
  | .set => s.life = .ready ∧ u = { s with sync := false }
  | .init => s.life = .uninit ∧ u = { s with pinmap := samplePins s.env.cfgPin }
  | .shutdown => s.life = .ready ∧ u = { s with life := .uninit, digit := none, sync := false }

/-- u is s after the commit of r has written all but SEQ and the response (R115, R146). -/
def State.Committed (s : State) (r : SeqRec) (u : State) : SeqKind → Prop
  | .set => ∃ pat val, r.phase = .commitSet pat val ∧ u = { s with digit := some val, sync := true }
  | .init =>
    r.phase = .commitInit ∧ u = { s with digit := some s.params.defaultDigit, life := .ready, sync := false }
  | .shutdown => False

/-- What a micro-step of a lock-taking operation of kind κ can do to s (R27, R64). -/
inductive MicroStep (κ : SeqKind) (s : State) : State → Prop
  /-- Another caller's operation, or one of another kind, holds the lock. -/
  | waits (r : SeqRec) (hq : s.seq = some r) (hother : r.caller = s.active → r.kind ≠ κ) : MicroStep κ s s
  /-- The acquisition answers at once. -/
  | answers (st : Status) (hq : s.seq = none) : MicroStep κ s (s.respond s.active st 0 0)
  /-- The acquisition takes the lock. -/
  | takesLock (q : SeqRec) (u : State) (hq : s.seq = none) (hu : s.Acquired u κ) : MicroStep κ s (u.withSeq (some q))
  /-- A pin phase. -/
  | touches (r : SeqRec) (k : Slot) (u t : State) (hq : s.seq = some r) (hc : r.caller = s.active)
      (htarget : s.pinTarget = some k) (hu : s.PinStep u k) (howned : κ = .set → u.owned = s.owned)
      (hsync : κ = .init → u.sync = s.sync) (ht : r.Leaves u t) : MicroStep κ s t
  /-- A commit. -/
  | commits (r : SeqRec) (u : State) (hq : s.seq = some r) (hc : r.caller = s.active) (hu : s.Committed r u κ) :
      MicroStep κ s ((u.withSeq none).respond r.caller .ok 0 0)

section PinPhases

variable {s t u : State} {c : Nat} {k : Slot}

theorem State.PinStep.of_pin {e : Env} (he : s.env.answeredTo e) (b : Bool) (o : Bool) (l : Option Level) :
    s.PinStep { (s.withEnv e).withPin k o l with sync := b } k where
  world := ⟨rfl, rfl, rfl, rfl, he⟩
  digit := rfl
  pinmap := rfl
  life := rfl
  pending := rfl
  rsp := rfl
  owned i hi := (slot_get_set s.owned k i o).trans (if_neg (Ne.symm hi))
  out i hi := (slot_get_set s.out k i l).trans (if_neg (Ne.symm hi))

theorem gpioWrite_pinStep {ph : WritePhase} {l : Level} {a : GpioAnswer} (h : gpioWrite c ph k l s = .ok (a, u)) :
    s.PinStep u k ∧ u.owned = s.owned := by
  obtain ⟨-, howned, e, lv, he, ⟨-, -, rfl⟩ | ⟨-, rfl⟩⟩ := gpioWrite_cases h
  · exact ⟨.of_pin he s.sync true (some lv), owned_set_self howned⟩
  · exact ⟨.of_pin he false true (some lv), owned_set_self howned⟩

theorem gpioClaim_pinStep {l : Level} {a : GpioAnswer} (h : gpioClaim k l s = .ok (a, u)) :
    s.PinStep u k ∧ u.sync = s.sync := by
  obtain ⟨p, e, -, he, ⟨-, -, rfl⟩ | ⟨-, rfl⟩⟩ := gpioClaim_cases h
  · exact ⟨.of_pin he s.sync true (some l), rfl⟩
  · exact ⟨⟨⟨rfl, rfl, rfl, rfl, he⟩, rfl, rfl, rfl, rfl, rfl, fun _ _ => rfl, fun _ _ => rfl⟩, rfl⟩

theorem gpioRelease_pinStep (h : gpioRelease k s = .ok u) : s.PinStep u k ∧ u.sync = s.sync := by
  obtain ⟨-, -, rfl⟩ := gpioRelease_cases h
  exact ⟨.of_pin s.env.answeredTo_refl s.sync false none, rfl⟩

/-! Each pin phase leaves what its primitive has made, with fewer micro-steps left (R65). -/

theorem setClear_leaves {pat : Pattern} {val : Digit}
    (h : setClear ⟨c, .clear pat val, slotIndex k⟩ k pat val s = .next t) :
    ∃ u, (s.PinStep u k ∧ u.owned = s.owned) ∧ SeqRec.Leaves ⟨c, .clear pat val, slotIndex k⟩ u t := by
  obtain ⟨a, u, hu, h⟩ := afterPin_next h
  refine ⟨u, gpioWrite_pinStep hu, ?_⟩
  cases a with
  | fail => cases h; exact .ends _ _
  | ok =>
    dsimp only at h
    split at h
    · next k' hk' =>
      cases h
      have := nextSlot_some hk'
      exact .goesOn _ rfl (show 15 - k'.val < 15 - k.val by omega)
    · split at h
      · cases h
        exact .goesOn _ rfl (show 1 < 15 - k.val by omega)
      · next k' _ =>
        cases h
        exact .goesOn _ rfl (show 8 - k'.val < 15 - k.val by omega)

theorem setSetOn_leaves {pat : Pattern} {val : Digit}
    (h : setSetOn ⟨c, .setOn pat val, slotIndex k⟩ k pat val s = .next t) :
    ∃ u, (s.PinStep u k ∧ u.owned = s.owned) ∧ SeqRec.Leaves ⟨c, .setOn pat val, slotIndex k⟩ u t := by
  obtain ⟨a, u, hu, h⟩ := afterPin_next h
  refine ⟨u, gpioWrite_pinStep hu, ?_⟩
  cases a with
  | fail => cases h; exact .ends _ _
  | ok =>
    dsimp only at h
    split at h
    · next j hj =>
      cases h
      obtain ⟨-, hkj, -⟩ := nextLit_some hj
      have : k.val < j.val := hkj
      exact .goesOn _ rfl (show 8 - j.val < 8 - k.val by omega)
    · cases h
      exact .goesOn _ rfl (show 1 < 8 - k.val by omega)

theorem initClaimFailed_leaves :
    SeqRec.Leaves ⟨c, .claim, slotIndex k⟩ u (initClaimFailed ⟨c, .claim, slotIndex k⟩ k u) := by
  unfold initClaimFailed
  split
  · exact .ends _ _
  · next k' hk' =>
    have := prevSlot_some hk'
    exact .goesOn _ rfl (show k'.val + 1 < 13 - k.val by omega)

theorem initClaim_leaves (h : initClaim ⟨c, .claim, slotIndex k⟩ k s = .next t) :
    ∃ u, (s.PinStep u k ∧ u.sync = s.sync) ∧ SeqRec.Leaves ⟨c, .claim, slotIndex k⟩ u t := by
  obtain ⟨a, u, hu, h⟩ := afterPin_next h
  refine ⟨u, gpioClaim_pinStep hu, ?_⟩
  cases a with
  | fail => cases h; exact initClaimFailed_leaves
  | ok =>
    dsimp only at h
    split at h
    · next k' hk' =>
      cases h
      have := nextSlot_some hk'
      exact .goesOn _ rfl (show 13 - k'.val < 13 - k.val by omega)
    · cases h
      exact .goesOn _ rfl (show 1 < 13 - k.val by omega)

theorem initUnwind_leaves {err : Slot} (h : initUnwind ⟨c, .unwind err, slotIndex k⟩ k err s = .next t) :
    ∃ u, (s.PinStep u k ∧ u.sync = s.sync) ∧ SeqRec.Leaves ⟨c, .unwind err, slotIndex k⟩ u t := by
  obtain ⟨u, hu, rfl⟩ := afterRelease_next h
  refine ⟨u, gpioRelease_pinStep hu, ?_⟩
  split
  · exact .ends _ _
  · next k' hk' =>
    have := prevSlot_some hk'
    exact .goesOn _ rfl (show k'.val + 1 < k.val + 1 by omega)

theorem shutdownOff_leaves (h : shutdownOff ⟨c, .off, slotIndex k⟩ k s = .next t) :
    ∃ u, s.PinStep u k ∧ SeqRec.Leaves ⟨c, .off, slotIndex k⟩ u t := by
  obtain ⟨a, u, hu, h⟩ := afterPin_next h
  refine ⟨u, (gpioWrite_pinStep hu).1, ?_⟩
  split at h
  · next k' hk' =>
    cases h
    have := nextSlot_some hk'
    exact .goesOn _ rfl (show 14 - k'.val < 14 - k.val by omega)
  · cases h
    exact .goesOn _ rfl (show 7 - 0 < 14 - k.val by omega)

theorem shutdownRelease_leaves (h : shutdownRelease ⟨c, .release, slotIndex k⟩ k s = .next t) :
    ∃ u, s.PinStep u k ∧ SeqRec.Leaves ⟨c, .release, slotIndex k⟩ u t := by
  obtain ⟨u, hu, rfl⟩ := afterRelease_next h
  refine ⟨u, (gpioRelease_pinStep hu).1, ?_⟩
  split
  · next k' hk' =>
    have := nextSlot_some hk'
    exact .goesOn _ rfl (show 7 - k'.val < 7 - k.val by omega)
  · exact .ends _ _

end PinPhases

section Operations

variable {s t : State} {r : SeqRec}

/-- The slot a pin phase of the caller being served touches is the one SEQ.k names. -/
theorem pinTarget_of_phase {k : Slot} (hq : s.seq = some r) (hc : r.caller = s.active) (hk : r.k = slotIndex k)
    (hcommit : r.phase ≠ .commitInit) (hset : ∀ pat val, r.phase ≠ .commitSet pat val) : s.pinTarget = some k := by
  obtain ⟨c, ph, x⟩ := r
  dsimp only at hk hset hcommit hc
  cases ph
  case commitInit => exact absurd rfl hcommit
  case commitSet pat val => exact absurd rfl (hset pat val)
  all_goals simp [State.pinTarget, hq, hc, hk]

theorem setGo_micro (hq : s.seq = some r) (hc : r.caller = s.active) (h : setGo s r = .next t) :
    MicroStep .set s t := by
  have hwait : t = s → r.kind ≠ .set → MicroStep .set s t := by
    rintro rfl hk
    exact .waits r hq fun _ => hk
  obtain ⟨c, ph, x⟩ := r
  cases ph
  case clear pat val =>
    obtain ⟨k, rfl, h⟩ := atSlot_next h
    obtain ⟨u, ⟨hu, hown⟩, hl⟩ := setClear_leaves h
    exact .touches _ k u t hq hc (pinTarget_of_phase hq hc rfl nofun nofun) hu (fun _ => hown) nofun hl
  case setOn pat val =>
    obtain ⟨k, rfl, h⟩ := atSlot_next h
    obtain ⟨u, ⟨hu, hown⟩, hl⟩ := setSetOn_leaves h
    exact .touches _ k u t hq hc (pinTarget_of_phase hq hc rfl nofun nofun) hu (fun _ => hown) nofun hl
  case commitSet pat val =>
    cases h
    exact .commits _ { s with digit := some val, sync := true } hq hc ⟨pat, val, rfl, rfl⟩
  all_goals cases h; exact hwait rfl nofun

theorem initGo_micro (hq : s.seq = some r) (hc : r.caller = s.active) (h : initGo s r = .next t) :
    MicroStep .init s t := by
  have hwait : t = s → r.kind ≠ .init → MicroStep .init s t := by
    rintro rfl hk
    exact .waits r hq fun _ => hk
  obtain ⟨c, ph, x⟩ := r
  cases ph
  case claim =>
    obtain ⟨k, rfl, h⟩ := atSlot_next h
    obtain ⟨u, ⟨hu, hsync⟩, hl⟩ := initClaim_leaves h
    exact .touches _ k u t hq hc (pinTarget_of_phase hq hc rfl nofun nofun) hu nofun (fun _ => hsync) hl
  case unwind err =>
    obtain ⟨k, rfl, h⟩ := atSlot_next h
    obtain ⟨u, ⟨hu, hsync⟩, hl⟩ := initUnwind_leaves h
    exact .touches _ k u t hq hc (pinTarget_of_phase hq hc rfl nofun nofun) hu nofun (fun _ => hsync) hl
  case commitInit =>
    cases h
    exact .commits _ { s with digit := some s.params.defaultDigit, life := .ready, sync := false } hq hc ⟨rfl, rfl⟩
  all_goals cases h; exact hwait rfl nofun

theorem shutdownGo_micro (hq : s.seq = some r) (hc : r.caller = s.active) (h : shutdownGo s r = .next t) :
    MicroStep .shutdown s t := by
  have hwait : t = s → r.kind ≠ .shutdown → MicroStep .shutdown s t := by
    rintro rfl hk
    exact .waits r hq fun _ => hk
  obtain ⟨c, ph, x⟩ := r
  cases ph
  case off =>
    obtain ⟨k, rfl, h⟩ := atSlot_next h
    obtain ⟨u, hu, hl⟩ := shutdownOff_leaves h
    exact .touches _ k u t hq hc (pinTarget_of_phase hq hc rfl nofun nofun) hu nofun nofun hl
  case release =>
    obtain ⟨k, rfl, h⟩ := atSlot_next h
    obtain ⟨u, hu, hl⟩ := shutdownRelease_leaves h
    exact .touches _ k u t hq hc (pinTarget_of_phase hq hc rfl nofun nofun) hu nofun nofun hl
  all_goals cases h; exact hwait rfl nofun

/-- The lock's three cases, for an operation whose acquisition and whose next micro-step are known (R27, R64). -/
theorem withLock_micro {κ : SeqKind} {acquire : Result} {go : SeqRec → Result}
    (hacquire : s.seq = none → acquire = .next t → MicroStep κ s t)
    (hgo : ∀ r, s.seq = some r → r.caller = s.active → go r = .next t → MicroStep κ s t)
    (h : withLock s acquire go = .next t) : MicroStep κ s t := by
  obtain ⟨hq, h⟩ | ⟨r, hq, hc, h⟩ | ⟨r, hq, hc, rfl⟩ := withLock_next h
  · exact hacquire hq h
  · exact hgo r hq hc h
  · exact .waits r hq fun hmine => absurd hmine hc

theorem exec_setDigit_micro {v : Value} (h : exec (.setDigit v) s = .next t) : MicroStep .set s t := by
  refine withLock_micro (fun hq h => ?acquire) (fun _ hq hc => setGo_micro hq hc) h
  unfold setAcquire at h
  split at h
  · cases h; exact .answers _ hq
  · next hlife =>
    split at h
    · cases h; exact .takesLock _ { s with sync := false } hq ⟨hlife, rfl⟩
    · cases h; exact .answers _ hq

theorem exec_init_micro {v : Value} (h : exec (.init v) s = .next t) : MicroStep .init s t := by
  refine withLock_micro (fun hq h => ?acquire) (fun _ hq hc => initGo_micro hq hc) h
  cases hlife : s.life with
  | ready => rw [initAcquire_ready hlife] at h; cases h; exact .answers _ hq
  | uninit =>
    rw [initAcquire_uninit hlife] at h
    cases h
    exact .takesLock _ { s with pinmap := samplePins s.env.cfgPin } hq ⟨hlife, rfl⟩

theorem exec_shutdown_micro {v : Value} (h : exec (.shutdown v) s = .next t) : MicroStep .shutdown s t := by
  refine withLock_micro (fun hq h => ?acquire) (fun _ hq hc => shutdownGo_micro hq hc) h
  cases hlife : s.life with
  | uninit => rw [shutdownAcquire_uninit hlife] at h; cases h; exact .answers _ hq
  | ready =>
    rw [shutdownAcquire_ready hlife] at h
    cases h
    exact .takesLock _ { s with life := .uninit, digit := none, sync := false } hq ⟨hlife, rfl⟩

end Operations

/-! ### What every micro-step leaves alone -/

section Frames

variable {κ : SeqKind} {s t u : State}

theorem State.Acquired.sameWorld (h : s.Acquired u κ) : s.sameWorld u := by
  cases κ with
  | set => obtain ⟨-, rfl⟩ := h; exact ⟨rfl, rfl, rfl, rfl, rfl⟩
  | init => obtain ⟨-, rfl⟩ := h; exact ⟨rfl, rfl, rfl, rfl, rfl⟩
  | shutdown => obtain ⟨-, rfl⟩ := h; exact ⟨rfl, rfl, rfl, rfl, rfl⟩

theorem State.Acquired.pins (h : s.Acquired u κ) : u.owned = s.owned ∧ u.out = s.out := by
  cases κ with
  | set => obtain ⟨-, rfl⟩ := h; exact ⟨rfl, rfl⟩
  | init => obtain ⟨-, rfl⟩ := h; exact ⟨rfl, rfl⟩
  | shutdown => obtain ⟨-, rfl⟩ := h; exact ⟨rfl, rfl⟩

theorem State.Acquired.channels (h : s.Acquired u κ) : u.pending = s.pending ∧ u.rsp = s.rsp := by
  cases κ with
  | set => obtain ⟨-, rfl⟩ := h; exact ⟨rfl, rfl⟩
  | init => obtain ⟨-, rfl⟩ := h; exact ⟨rfl, rfl⟩
  | shutdown => obtain ⟨-, rfl⟩ := h; exact ⟨rfl, rfl⟩

theorem State.Committed.sameWorld {r : SeqRec} (h : s.Committed r u κ) : s.sameWorld u := by
  cases κ with
  | set => obtain ⟨pat, val, -, rfl⟩ := h; exact ⟨rfl, rfl, rfl, rfl, rfl⟩
  | init => obtain ⟨-, rfl⟩ := h; exact ⟨rfl, rfl, rfl, rfl, rfl⟩
  | shutdown => cases h

theorem State.Committed.pins {r : SeqRec} (h : s.Committed r u κ) :
    u.owned = s.owned ∧ u.out = s.out ∧ u.pinmap = s.pinmap := by
  cases κ with
  | set => obtain ⟨pat, val, -, rfl⟩ := h; exact ⟨rfl, rfl, rfl⟩
  | init => obtain ⟨-, rfl⟩ := h; exact ⟨rfl, rfl, rfl⟩
  | shutdown => cases h

theorem State.Committed.channels {r : SeqRec} (h : s.Committed r u κ) : u.pending = s.pending ∧ u.rsp = s.rsp := by
  cases κ with
  | set => obtain ⟨pat, val, -, rfl⟩ := h; exact ⟨rfl, rfl⟩
  | init => obtain ⟨-, rfl⟩ := h; exact ⟨rfl, rfl⟩
  | shutdown => cases h

/-- A field that neither SEQ nor a response is part of is the same in u and in what r leaves of it. -/
theorem SeqRec.Leaves.field {α : Type} {r : SeqRec} (h : r.Leaves u t) (f : State → α)
    (hseq : ∀ q, f (u.withSeq q) = f u) (hrsp : ∀ v c st info d, f (State.respond v c st info d) = f v) :
    f t = f u := by
  cases h with
  | goesOn q => exact hseq _
  | ends st info => exact (hrsp _ _ _ _ _).trans (hseq _)

theorem SeqRec.Leaves.sameWorld {r : SeqRec} (h : r.Leaves u t) (hu : s.sameWorld u) : s.sameWorld t := by
  cases h with
  | goesOn q => exact hu
  | ends st info => exact hu

theorem MicroStep.sameWorld (h : MicroStep κ s t) : s.sameWorld t := by
  cases h with
  | waits r => exact ⟨rfl, rfl, rfl, rfl, rfl⟩
  | answers st => exact ⟨rfl, rfl, rfl, rfl, rfl⟩
  | takesLock q u _ hu => exact hu.sameWorld
  | touches r k u _ _ _ _ hu _ _ ht => exact ht.sameWorld hu.world
  | commits r u _ _ hu => exact hu.sameWorld

/-- The caller being served is answered, or no channel changes. -/
def State.AnswersOrKeeps (s t : State) : Prop :=
  (t.pending = s.pending ∧ t.rsp = s.rsp) ∨
    ∃ w, t.pending = Slots.erase s.active s.pending ∧ t.rsp = Slots.set s.active w s.rsp

theorem MicroStep.answersOrKeeps (h : MicroStep κ s t) : s.AnswersOrKeeps t := by
  cases h with
  | waits r => exact .inl ⟨rfl, rfl⟩
  | answers st => exact .inr ⟨_, rfl, rfl⟩
  | takesLock q u _ hu => exact .inl hu.channels
  | touches r k u _ _ hc _ hu _ _ ht =>
    cases ht with
    | goesOn q => exact .inl ⟨hu.pending, hu.rsp⟩
    | ends st info => exact .inr ⟨_, congrArg₂ Slots.erase hc hu.pending, congrArg₂ (Slots.set · _) hc hu.rsp⟩
  | commits r u _ hc hu =>
    obtain ⟨hpending, hrsp⟩ := hu.channels
    exact .inr ⟨_, congrArg₂ Slots.erase hc hpending, congrArg₂ (Slots.set · _) hc hrsp⟩

theorem State.AnswersOrKeeps.sameChannelsBut (h : s.AnswersOrKeeps t) : s.sameChannelsBut t s.active := by
  intro d hd
  obtain ⟨hpending, hrsp⟩ | ⟨w, hpending, hrsp⟩ := h
  · rw [hpending, hrsp]; exact ⟨rfl, rfl⟩
  · rw [hpending, hrsp, Slots.get_erase, if_neg hd, Slots.get_set, if_neg hd]; exact ⟨rfl, rfl⟩

/-- OWNED and OUT change at most at the slot that is touched. -/
theorem MicroStep.pins (h : MicroStep κ s t) {k : Slot} (hk : s.pinTarget = some k) (i : Slot) (hi : i ≠ k) :
    t.owned[i] = s.owned[i] ∧ t.out[i] = s.out[i] := by
  cases h with
  | waits r => exact ⟨rfl, rfl⟩
  | answers st => exact ⟨rfl, rfl⟩
  | takesLock q u _ hu =>
    obtain ⟨ho, hl⟩ := hu.pins
    simp only [State.withSeq_owned, State.withSeq_out, ho, hl, and_self]
  | touches r k' u _ _ _ htarget hu _ _ ht =>
    rw [htarget] at hk
    cases hk
    rw [ht.field (·.owned) (fun _ => rfl) (fun _ _ _ _ _ => rfl),
      ht.field (·.out) (fun _ => rfl) (fun _ _ _ _ _ => rfl)]
    exact ⟨hu.owned i hi, hu.out i hi⟩
  | commits r u _ _ hu =>
    obtain ⟨ho, hl, -⟩ := hu.pins
    simp only [State.respond_owned, State.respond_out, State.withSeq_owned, State.withSeq_out, ho, hl, and_self]

/-- A micro-step that touches no pin leaves OWNED and OUT alone. -/
theorem MicroStep.untouched (h : MicroStep κ s t) (hnone : s.pinTarget = none) :
    t.owned = s.owned ∧ t.out = s.out := by
  cases h with
  | waits r => exact ⟨rfl, rfl⟩
  | answers st => exact ⟨rfl, rfl⟩
  | takesLock q u _ hu => exact hu.pins
  | touches r k _ _ _ _ htarget => rw [hnone] at htarget; cases htarget
  | commits r u _ _ hu => obtain ⟨ho, hl, -⟩ := hu.pins; exact ⟨ho, hl⟩

theorem MicroStep.set_owned (h : MicroStep .set s t) : t.owned = s.owned := by
  cases h with
  | waits r => rfl
  | answers st => rfl
  | takesLock q u _ hu => exact hu.pins.1
  | touches r k u _ _ _ _ _ howned _ ht =>
    exact (ht.field (·.owned) (fun _ => rfl) (fun _ _ _ _ _ => rfl)).trans (howned rfl)
  | commits r u _ _ hu => exact hu.pins.1

theorem MicroStep.set_life (h : MicroStep .set s t) : t.life = s.life := by
  cases h with
  | waits r => rfl
  | answers st => rfl
  | takesLock q u _ hu => obtain ⟨-, rfl⟩ := hu; rfl
  | touches r k u _ _ _ _ hu _ _ ht => exact (ht.field (·.life) (fun _ => rfl) (fun _ _ _ _ _ => rfl)).trans hu.life
  | commits r u _ _ hu => obtain ⟨_, _, -, rfl⟩ := hu; rfl

/-- SYNC in an INIT micro-step: the commit alone writes it. -/
theorem MicroStep.init_sync (h : MicroStep .init s t) (hcommit : ∀ r, s.seq = some r → r.phase ≠ .commitInit) :
    t.sync = s.sync := by
  cases h with
  | waits r => rfl
  | answers st => rfl
  | takesLock q u _ hu => obtain ⟨-, rfl⟩ := hu; rfl
  | touches r k u _ _ _ _ _ _ hsync ht =>
    exact (ht.field (·.sync) (fun _ => rfl) (fun _ _ _ _ _ => rfl)).trans (hsync rfl)
  | commits r u hq _ hu => obtain ⟨hph, -⟩ := hu; exact absurd hph (hcommit r hq)

/-- What writes DIGIT and LIFE: a commit, or SHUTDOWN's acquisition. -/
theorem MicroStep.digit_life (h : MicroStep κ s t) :
    (t.digit = s.digit ∧ t.life = s.life) ∨
    (∃ r u, s.seq = some r ∧ r.caller = s.active ∧ s.Committed r u κ ∧ t.digit = u.digit ∧ t.life = u.life) ∨
    (s.seq = none ∧ κ = .shutdown ∧ s.life = .ready ∧ t.digit = none) := by
  cases h with
  | waits r => exact .inl ⟨rfl, rfl⟩
  | answers st => exact .inl ⟨rfl, rfl⟩
  | takesLock q u hq hu =>
    cases κ with
    | set => obtain ⟨-, rfl⟩ := hu; exact .inl ⟨rfl, rfl⟩
    | init => obtain ⟨-, rfl⟩ := hu; exact .inl ⟨rfl, rfl⟩
    | shutdown => obtain ⟨hlife, rfl⟩ := hu; exact .inr (.inr ⟨hq, rfl, hlife, rfl⟩)
  | touches r k u _ _ _ _ hu _ _ ht =>
    exact .inl ⟨(ht.field (·.digit) (fun _ => rfl) (fun _ _ _ _ _ => rfl)).trans hu.digit,
      (ht.field (·.life) (fun _ => rfl) (fun _ _ _ _ _ => rfl)).trans hu.life⟩
  | commits r u hq hc hu => exact .inr (.inl ⟨r, u, hq, hc, hu, rfl, rfl⟩)

/-- PINMAP while the lock is held (R112). -/
theorem MicroStep.pinmap (h : MicroStep κ s t) (hheld : s.seq ≠ none) : t.pinmap = s.pinmap := by
  cases h with
  | waits r => rfl
  | answers st => rfl
  | takesLock q u hq => exact absurd hq hheld
  | touches r k u _ _ _ _ hu _ _ ht =>
    exact (ht.field (·.pinmap) (fun _ => rfl) (fun _ _ _ _ _ => rfl)).trans hu.pinmap
  | commits r u _ _ hu => exact hu.pins.2.2

end Frames

/-- Settles O29: SET_DIGIT's acquisition and commit touch no pin, and its writes leave OWNED alone (R141 to R146). -/
theorem setDigitFrame : Obligations.SetDigitFrame := by
  intro s t v h
  have hm := exec_setDigit_micro h
  have hchan := hm.answersOrKeeps.sameChannelsBut
  refine ⟨execSetDigit_pinmap (v := v) h, hm.set_owned, hm.set_life, hm.sameWorld, fun r _ hc => hc ▸ hchan,
    fun _ => hchan, fun k hk i hi => (hm.pins hk i hi).2, fun hnone => (hm.untouched hnone).2, fun hcommit => ?digit⟩
  obtain ⟨hdigit, -⟩ | ⟨r, u, hq, -, ⟨pat, val, hph, -⟩, -⟩ | ⟨-, hκ, -⟩ := hm.digit_life
  · exact hdigit
  · exact absurd hph (hcommit r pat val hq)
  · cases hκ

/-- Settles O35: INIT's commit alone writes DIGIT, LIFE and SYNC, its acquisition alone PINMAP (R112 to R116). -/
theorem initFrame : Obligations.InitFrame := by
  intro s t v h
  have hm := exec_init_micro h
  have hchan := hm.answersOrKeeps.sameChannelsBut
  refine ⟨hm.sameWorld, fun r _ hc => hc ▸ hchan, fun _ => hchan, fun k hk => hm.pins hk, hm.untouched,
    fun hcommit => ?digit, hm.pinmap⟩
  obtain ⟨hdigit, hlife⟩ | ⟨r, u, hq, -, ⟨hph, -⟩, -⟩ | ⟨-, hκ, -⟩ := hm.digit_life
  · exact ⟨hdigit, hlife, hm.init_sync hcommit⟩
  · exact absurd hph (hcommit r hq)
  · cases hκ

/-- Settles O39: SHUTDOWN's acquisition alone writes DIGIT and LIFE (R121 to R123). -/
theorem shutdownFrame : Obligations.ShutdownFrame := by
  intro s t v h
  have hm := exec_shutdown_micro h
  have hchan := hm.answersOrKeeps.sameChannelsBut
  refine ⟨execShutdown_pinmap (v := v) h, hm.sameWorld, fun r _ hc => hc ▸ hchan, fun _ => hchan,
    fun k hk => hm.pins hk, hm.untouched, fun hheld => ?digit⟩
  obtain hkept | ⟨r, u, -, -, hu, -⟩ | ⟨hq, -⟩ := hm.digit_life
  · exact hkept
  · cases hu
  · exact absurd hq hheld

end Sys2Proof.Machine
end

section
/-! SUPPORT. What a step of any agent can do, from the cases of a micro-step (MicroStep) and of the acts that run none,
and the statements about every step: the lock, the channels, the writers of DIGIT, the parameters. -/

namespace Sys2Proof.Machine

open Sys2Proof

section Steps

variable {s t : State} {e : Event} {i : Instr}

/-! ### The two operations without the lock -/

/-- GET_DIGIT answers its caller, and nothing else changes (R150). -/
theorem execGetDigit_cases {v : Value} (h : exec (.getDigit v) s = .next t) :
    ∃ st d, t = s.respond s.active st 0 d := by
  cases hlife : s.life with
  | uninit => rw [exec_getDigit_uninit v hlife] at h; cases h; exact ⟨_, _, rfl⟩
  | ready =>
    cases hdigit : s.digit with
    | some d => rw [exec_getDigit_ready v hlife hdigit] at h; cases h; exact ⟨_, _, rfl⟩
    | none => rw [getDigitOfNoneStops s v hlife hdigit] at h; cases h

theorem State.sameBlock_refl (s : State) : s.sameBlock s := ⟨rfl, rfl, rfl, rfl, rfl, rfl, rfl, rfl, rfl⟩

/-! ### An operation, whatever it is -/

theorem exec_params_cfgPin (h : exec i s = .next t) : t.params = s.params ∧ t.env.cfgPin = s.env.cfgPin := by
  have of_micro : ∀ {κ}, MicroStep κ s t → t.params = s.params ∧ t.env.cfgPin = s.env.cfgPin := by
    intro κ hm
    obtain ⟨hparams, -, -, -, henv⟩ := hm.sameWorld
    exact ⟨hparams, Env.answeredTo_cfgPin henv⟩
  cases i with
  | getDigit v => obtain ⟨st, d, rfl⟩ := execGetDigit_cases h; exact ⟨rfl, rfl⟩
  | setDigit v => exact of_micro (exec_setDigit_micro h)
  | init v => exact of_micro (exec_init_micro h)
  | shutdown v => exact of_micro (exec_shutdown_micro h)
  | encode x => cases h; exact ⟨rfl, rfl⟩

theorem exec_answersOrKeeps (h : exec i s = .next t) : s.AnswersOrKeeps t := by
  cases i with
  | getDigit v => obtain ⟨st, d, rfl⟩ := execGetDigit_cases h; exact .inr ⟨_, rfl, rfl⟩
  | setDigit v => exact (exec_setDigit_micro h).answersOrKeeps
  | init v => exact (exec_init_micro h).answersOrKeeps
  | shutdown v => exact (exec_shutdown_micro h).answersOrKeeps
  | encode x => cases h; exact .inl ⟨rfl, rfl⟩

/-- What is left of the block when SEQ, the pins, DIGIT, LIFE and SYNC are all as they were (R27, R62). -/
def State.sameCore (s t : State) : Prop :=
  t.seq = s.seq ∧ t.out = s.out ∧ t.owned = s.owned ∧ t.pinmap = s.pinmap ∧ t.digit = s.digit ∧ t.life = s.life ∧
    t.sync = s.sync

/-- An operation of a caller that does not hold the lock, while it is held (R64, R150). -/
theorem exec_sameCore {r : SeqRec} (hq : s.seq = some r) (hc : r.caller ≠ s.active) (h : exec i s = .next t) :
    s.sameCore t := by
  cases i with
  | getDigit v => obtain ⟨st, d, rfl⟩ := execGetDigit_cases h; exact ⟨rfl, rfl, rfl, rfl, rfl, rfl, rfl⟩
  | setDigit v =>
    obtain ⟨hwaits, -, -⟩ := lockHeldRequestsWait s r v hq hc
    rw [hwaits] at h
    cases h
    exact ⟨rfl, rfl, rfl, rfl, rfl, rfl, rfl⟩
  | init v =>
    obtain ⟨-, hwaits, -⟩ := lockHeldRequestsWait s r v hq hc
    rw [hwaits] at h
    cases h
    exact ⟨rfl, rfl, rfl, rfl, rfl, rfl, rfl⟩
  | shutdown v =>
    obtain ⟨-, -, hwaits⟩ := lockHeldRequestsWait s r v hq hc
    rw [hwaits] at h
    cases h
    exact ⟨rfl, rfl, rfl, rfl, rfl, rfl, rfl⟩
  | encode x => cases h; exact ⟨rfl, rfl, rfl, rfl, rfl, rfl, rfl⟩

/-- The three operations that write DIGIT, and the value each gives it (R22, R115, R121, R146). -/
theorem exec_digit (h : exec i s = .next t) (hne : t.digit ≠ s.digit) :
    (∃ r v, s.seq = some r ∧ r.caller = s.active ∧ i = .init v ∧ r.phase = .commitInit ∧
      t.digit = some s.params.defaultDigit) ∨
    (∃ r v pat val, s.seq = some r ∧ r.caller = s.active ∧ i = .setDigit v ∧ r.phase = .commitSet pat val ∧
      t.digit = some val) ∨
    (∃ v, s.seq = none ∧ i = .shutdown v ∧ s.life = .ready ∧ t.digit = none) := by
  cases i with
  | getDigit v =>
    obtain ⟨st, d, rfl⟩ := execGetDigit_cases h
    exact absurd rfl hne
  | init v =>
    obtain ⟨hdigit, -⟩ | ⟨r, u, hq, hc, ⟨hph, rfl⟩, hdigit, -⟩ | ⟨-, hκ, -⟩ := (exec_init_micro h).digit_life
    · exact absurd hdigit hne
    · exact .inl ⟨r, v, hq, hc, rfl, hph, hdigit⟩
    · cases hκ
  | setDigit v =>
    obtain ⟨hdigit, -⟩ | ⟨r, u, hq, hc, ⟨pat, val, hph, rfl⟩, hdigit, -⟩ | ⟨-, hκ, -⟩ :=
      (exec_setDigit_micro h).digit_life
    · exact absurd hdigit hne
    · exact .inr (.inl ⟨r, v, pat, val, hq, hc, rfl, hph, hdigit⟩)
    · cases hκ
  | shutdown v =>
    obtain ⟨hdigit, -⟩ | ⟨r, u, -, -, hu, -⟩ | ⟨hq, -, hlife, hdigit⟩ := (exec_shutdown_micro h).digit_life
    · exact absurd hdigit hne
    · cases hu
    · exact .inr (.inr ⟨v, hq, rfl, hlife, hdigit⟩)
  | encode x => cases h; exact absurd rfl hne

/-! ### An act that runs no instruction -/

/-- A front end that takes a response changes its own call alone. -/
theorem frontCollect_cases {c : Nat} (h : frontCollect c s = .next t) : t = s ∨ ∃ f, t = s.withFront c f := by
  unfold frontCollect at h
  split at h
  · split at h
    · cases h; exact .inr ⟨_, rfl⟩
    · cases h
  · split at h
    · cases h; exact .inr ⟨_, rfl⟩
    · cases h
  all_goals cases h; exact .inl rfl

/-- What an act that runs no instruction and is no reset can do: nothing, a change of cfg_pin, of a front-end call, or a
request of a caller that may issue, with its front-end call or without. -/
theorem perform_cases (he : e ≠ .reset) (h : perform e s = .next t) :
    t = s ∨ (∃ p, e = .cfgPins p ∧ t = { s with env := { s.env with cfgPin := p } }) ∨ (∃ c f, t = s.withFront c f) ∨
      ∃ c w, callerIdle s c = true ∧ (t = s.place c w ∨ ∃ f, t = (s.place c w).withFront c f) := by
  cases e with
  | request c w =>
    cases h
    split
    · next hc => exact .inr (.inr (.inr ⟨c, w, hc, .inl rfl⟩))
    · exact .inl rfl
  | writeAscii c b rest =>
    cases h
    split
    · next hc =>
      unfold frontWrite
      split
      · exact .inr (.inr (.inr ⟨c, _, hc, .inr ⟨_, rfl⟩⟩))
      · exact .inr (.inr (.inl ⟨c, _, rfl⟩))
    · exact .inl rfl
  | readAscii c via =>
    cases h
    split
    · next hc => exact .inr (.inr (.inr ⟨c, _, hc, .inr ⟨_, rfl⟩⟩))
    · exact .inl rfl
  | collect c =>
    obtain rfl | ⟨f, rfl⟩ := frontCollect_cases h
    · exact .inl rfl
    · exact .inr (.inr (.inl ⟨c, f, rfl⟩))
  | cfgPins p => cases h; exact .inr (.inl ⟨p, rfl, rfl⟩)
  | reset => contradiction
  | idle => cases h; exact .inl rfl
  | serve c => cases h; exact .inl rfl
  | encode x => cases h; exact .inl rfl
  | line c => cases h; exact .inl rfl

theorem perform_sameBlock (he : e ≠ .reset) (h : perform e s = .next t) : s.sameBlock t := by
  obtain rfl | ⟨p, -, rfl⟩ | ⟨c, f, rfl⟩ | ⟨c, w, -, rfl | ⟨f, rfl⟩⟩ := perform_cases he h
  all_goals exact State.sameBlock_refl _

/-- The world outside, after an act that runs no instruction and does not drive cfg_pin. -/
theorem perform_env (hp : ∀ p, e ≠ .cfgPins p) (h : perform e s = .next t) : t.env = s.env := by
  by_cases he : e = .reset
  · subst he; cases h; rfl
  · obtain rfl | ⟨p, hcfg, -⟩ | ⟨c, f, rfl⟩ | ⟨c, w, -, rfl | ⟨f, rfl⟩⟩ := perform_cases he h
    · rfl
    · exact absurd hcfg (hp p)
    all_goals rfl

theorem perform_params (h : perform e s = .next t) : t.params = s.params := by
  by_cases he : e = .reset
  · subst he; cases h; rfl
  · obtain ⟨-, -, -, -, -, -, -, -, hparams⟩ := perform_sameBlock he h
    exact hparams

/-- Caller c's channel issues its one request (R29). -/
def State.Issues (s t : State) (c : Nat) : Prop :=
  Slots.get c s.pending = none ∧ Slots.get c t.pending ≠ none ∧ Slots.get c t.rsp = none

theorem place_channel {d : Nat} (hd : callerIdle s d = true) (w : ReqWord) (c : Nat) :
    (Slots.get c (s.place d w).pending = Slots.get c s.pending ∧ Slots.get c (s.place d w).rsp = Slots.get c s.rsp) ∨
      s.Issues (s.place d w) c := by
  by_cases hcd : c = d
  · subst hcd
    refine .inr ⟨(callerIdle_spec hd).2, ?_, Slots.get_erase_self c s.rsp⟩
    rw [State.place_pending, Slots.get_set_self]
    exact Option.some_ne_none w
  · exact .inl ⟨(Slots.get_set d c w s.pending).trans (if_neg hcd), (Slots.get_erase d c s.rsp).trans (if_neg hcd)⟩

theorem perform_channel (he : e ≠ .reset) (h : perform e s = .next t) (c : Nat) :
    (Slots.get c t.pending = Slots.get c s.pending ∧ Slots.get c t.rsp = Slots.get c s.rsp) ∨ s.Issues t c := by
  obtain rfl | ⟨p, -, rfl⟩ | ⟨d, f, rfl⟩ | ⟨d, w, hd, rfl | ⟨f, rfl⟩⟩ := perform_cases he h
  · exact .inl ⟨rfl, rfl⟩
  · exact .inl ⟨rfl, rfl⟩
  · exact .inl ⟨rfl, rfl⟩
  · exact place_channel hd w c
  · exact place_channel hd w c

/-- A caller that is served is answered, or its channel is left alone; another caller's channel is. -/
theorem State.AnswersOrKeeps.channel (h : s.AnswersOrKeeps t) (c : Nat) :
    (Slots.get c t.pending = Slots.get c s.pending ∧ Slots.get c t.rsp = Slots.get c s.rsp) ∨
      (c = s.active ∧ Slots.get c t.pending = none ∧ Slots.get c t.rsp ≠ none) := by
  obtain ⟨hpending, hrsp⟩ | ⟨w, hpending, hrsp⟩ := h
  · exact .inl ⟨congrArg _ hpending, congrArg _ hrsp⟩
  · rw [hpending, hrsp, Slots.get_erase, Slots.get_set]
    by_cases hc : c = s.active
    · exact .inr ⟨hc, if_pos hc, by rw [if_pos hc]; exact Option.some_ne_none w⟩
    · exact .inl ⟨if_neg hc, if_neg hc⟩

/-! ### A step -/

/-- The state in which the next act is performed differs from s in the world outside alone. -/
theorem nextEvent_pending (s : State) : (nextEvent s).2.pending = s.pending := by
  rw [nextEvent_block, State.withEnv_pending]

theorem nextEvent_rsp (s : State) : (nextEvent s).2.rsp = s.rsp := by
  rw [nextEvent_block, State.withEnv_rsp]

theorem nextEvent_params (s : State) : (nextEvent s).2.params = s.params := by
  rw [nextEvent_block, State.withEnv_params]

theorem nextEvent_seq (s : State) : (nextEvent s).2.seq = s.seq := by
  rw [nextEvent_block, State.withEnv_seq]

theorem nextEvent_digit (s : State) : (nextEvent s).2.digit = s.digit := by
  rw [nextEvent_block, State.withEnv_digit]

theorem nextEvent_life (s : State) : (nextEvent s).2.life = s.life := by
  rw [nextEvent_block, State.withEnv_life]

theorem nextEvent_sameCore (s : State) : s.sameCore (nextEvent s).2 := by
  rw [nextEvent_block]
  exact ⟨rfl, rfl, rfl, rfl, rfl, rfl, rfl⟩

theorem State.sameCore.trans {u : State} (h : s.sameCore t) (h' : t.sameCore u) : s.sameCore u := by
  obtain ⟨h1, h2, h3, h4, h5, h6, h7⟩ := h
  obtain ⟨h1', h2', h3', h4', h5', h6', h7'⟩ := h'
  exact ⟨h1'.trans h1, h2'.trans h2, h3'.trans h3, h4'.trans h4, h5'.trans h5, h6'.trans h6, h7'.trans h7⟩

theorem State.sameBlock.core (h : s.sameBlock t) : s.sameCore t := by
  obtain ⟨hdigit, hpinmap, howned, hout, hlife, hseq, hsync, -, -⟩ := h
  exact ⟨hseq, hout, howned, hpinmap, hdigit, hlife, hsync⟩

end Steps

/-- Settles O41: an operation of another caller waits or is GET_DIGIT, and the other acts are outside the block
(R27, R62, R64). -/
theorem lockKeepsOthersOut : Obligations.LockKeepsOthersOut := by
  intro s t r hq h hserve hreset
  have hnext := nextEvent_sameCore s
  refine (?_ : s.sameCore t)
  obtain ⟨c, w, hact, -, hstep⟩ | ⟨x, -, hstep⟩ | ⟨-, hstep⟩ := step_cases s
  · rw [hstep] at h
    have hne : r.caller ≠ c := fun hc => hserve (hc ▸ hact)
    exact hnext.trans (exec_sameCore (s := { (nextEvent s).2 with active := c }) ((nextEvent_seq s).trans hq) hne h)
  · rw [hstep] at h; cases h; exact hnext
  · rw [hstep] at h; exact hnext.trans (perform_sameBlock hreset h).core

/-- Settles O11: a micro-step answers the caller it serves or keeps every channel, and another act places a request of a
caller that has none, or keeps every channel (R11, R29). -/
theorem oneResponsePerRequest : Obligations.OneResponsePerRequest := by
  intro s t c h hreset
  obtain ⟨d, w, hact, hw, hstep⟩ | ⟨x, -, hstep⟩ | ⟨-, hstep⟩ := step_cases s
  · rw [hstep] at h
    have hchan := (exec_answersOrKeeps h).channel c
    rw [nextEvent_pending, nextEvent_rsp] at hchan
    obtain hkept | ⟨rfl, hnone, hsome⟩ := hchan
    · exact .inl hkept
    · exact .inr (.inr ⟨hact, by rw [hw]; exact Option.some_ne_none w, hnone, hsome⟩)
  · rw [hstep] at h
    cases h
    exact .inl ⟨congrArg _ (nextEvent_pending s), congrArg _ (nextEvent_rsp s)⟩
  · rw [hstep] at h
    have hchan := perform_channel hreset h c
    rw [State.Issues, nextEvent_pending, nextEvent_rsp] at hchan
    exact hchan.imp_right .inl

/-- Settles O54: a commit writes DIGIT in its own phase, SHUTDOWN's acquisition ends it, and nothing else does
(R22, R62). -/
theorem digitHasThreeWriters : Obligations.DigitHasThreeWriters := by
  intro s t h hne hreset
  obtain ⟨c, w, hact, hw, hstep⟩ | ⟨x, -, hstep⟩ | ⟨-, hstep⟩ := step_cases s
  · rw [hstep] at h
    have hseq := nextEvent_seq s
    obtain ⟨r, v, hq, rfl, hdec, hph, hdigit⟩ | ⟨r, v, pat, val, hq, rfl, hdec, hph, hdigit⟩ |
      ⟨v, hq, hdec, hlife, hdigit⟩ := exec_digit h (ne_of_ne_of_eq hne (nextEvent_digit s).symm)
    · exact .inl ⟨r, v, hseq.symm.trans hq, hact, ⟨w, hw, hdec⟩, hph,
        hdigit.trans (congrArg (fun p : Params => some p.defaultDigit) (nextEvent_params s))⟩
    · exact .inr (.inl ⟨r, v, pat, val, hseq.symm.trans hq, hact, ⟨w, hw, hdec⟩, hph, hdigit⟩)
    · exact .inr (.inr ⟨c, v, hseq.symm.trans hq, hact, ⟨w, hw, hdec⟩, (nextEvent_life s).symm.trans hlife, hdigit⟩)
  · rw [hstep] at h; cases h; exact absurd (nextEvent_digit s) hne
  · rw [hstep] at h
    obtain ⟨hdigit, -⟩ := perform_sameBlock hreset h
    exact absurd (hdigit.trans (nextEvent_digit s)) hne

/-- Settles O55: no micro-step and no act writes the parameters, and of the acts the platform's alone writes cfg_pin
(R9, R33). -/
theorem parametersNeverChange : Obligations.ParametersNeverChange := by
  refine ⟨fun s t h => ?kept, fun s p hact => ⟨?effect, fun rest hevents => ?taken⟩⟩
  case kept =>
    obtain ⟨c, w, -, -, hstep⟩ | ⟨x, -, hstep⟩ | ⟨-, hstep⟩ := step_cases s
    · rw [hstep] at h
      obtain ⟨hparams, hcfg⟩ := exec_params_cfgPin h
      exact ⟨hparams.trans (nextEvent_params s), fun _ => hcfg.trans (nextEvent_cfgPin s)⟩
    · rw [hstep] at h
      obtain ⟨hparams, hcfg⟩ := exec_params_cfgPin h
      exact ⟨hparams.trans (nextEvent_params s), fun _ => hcfg.trans (nextEvent_cfgPin s)⟩
    · rw [hstep] at h
      refine ⟨(perform_params h).trans (nextEvent_params s), fun hp => ?_⟩
      rw [perform_env hp h, nextEvent_cfgPin]
  case effect =>
    have hn : nextEvent s = (.cfgPins p, s.withEnv (nextEvent s).2.env) := Prod.ext hact (nextEvent_block s)
    exact step_perform hn rfl
  case taken => rw [nextEvent_fixed hevents]; rfl

end Sys2Proof.Machine
end

section
/-! SUPPORT. A sound state never stops (R57, R185), and an operation that holds its lock frees it in time (R65): every
micro-step from a sound state completes, and leaves fewer to come (SeqRec.Leaves). -/

namespace Sys2Proof.Machine

open Sys2Proof

/-! ### Every micro-step completes -/

section Completes

variable {s : State} {r : SeqRec} {k : Slot}

theorem setClear_completes (pat : Pattern) (val : Digit) (hpin : s.pinmap[k] ≠ none) (howned : s.owned[k] = true) :
    ∃ t, setClear r k pat val s = .next t := by
  rcases h : s.env.takeWrite r.caller .clear k with ⟨_ | _, e⟩
  · exact ⟨_, setClear_ok hpin howned h⟩
  · exact ⟨_, setClear_fail hpin howned h⟩

theorem setSetOn_completes (pat : Pattern) (val : Digit) (hpin : s.pinmap[k] ≠ none) (howned : s.owned[k] = true) :
    ∃ t, setSetOn r k pat val s = .next t := by
  rcases h : s.env.takeWrite r.caller .setOn k with ⟨_ | _, e⟩
  · exact ⟨_, setSetOn_ok hpin howned h⟩
  · exact ⟨_, setSetOn_fail hpin howned h⟩

theorem shutdownOff_completes (hpin : s.pinmap[k] ≠ none) (howned : s.owned[k] = true) :
    ∃ t, shutdownOff r k s = .next t := by
  rcases h : s.env.takeWrite r.caller .off k with ⟨_ | _, e⟩
  · exact ⟨_, shutdownOff_ok hpin howned h⟩
  · exact ⟨_, shutdownOff_fail hpin howned h⟩

theorem initClaim_completes (hpin : s.pinmap[k] ≠ none) : ∃ t, initClaim r k s = .next t := by
  obtain ⟨p, hp⟩ := Option.ne_none_iff_exists'.mp hpin
  cases hfree : pinTaken s k p with
  | true => exact ⟨_, initClaim_fail (gpioClaim_forced hp hfree)⟩
  | false =>
    rcases h : s.env.takeClaim k with ⟨_ | _, e⟩
    · exact ⟨_, initClaim_ok hp hfree h⟩
    · exact ⟨_, initClaim_fail (gpioClaim_fail hp hfree h)⟩

/-- A release phase completes at an owned slot with a pin, whatever follows the release. -/
theorem afterRelease_completes (f : State → State) (hpin : s.pinmap[k] ≠ none) (howned : s.owned[k] = true) :
    ∃ t, afterRelease (gpioRelease k s) f = .next t := by
  rw [gpioRelease_completes hpin howned]
  exact ⟨_, rfl⟩

/-! In a sound state the pin that the phase in flight touches is mapped, and owned where the phase needs it. -/

theorem setGo_completes (hb : s.Busy r) : ∃ t, setGo s r = .next t := by
  obtain ⟨c, ph, x⟩ := r
  obtain ⟨k, rfl⟩ := exists_slotIndex hb.slot
  have pin_of_owned := hb.base.pins.mapped k
  cases ph
  case clear pat val =>
    have howned := hb.setOwns rfl k
    obtain ⟨t, ht⟩ := setClear_completes pat val (r := ⟨c, .clear pat val, slotIndex k⟩) (pin_of_owned howned) howned
    exact ⟨t, (atSlot_of rfl _).trans ht⟩
  case setOn pat val =>
    have howned := hb.setOwns rfl k
    obtain ⟨t, ht⟩ := setSetOn_completes pat val (r := ⟨c, .setOn pat val, slotIndex k⟩) (pin_of_owned howned) howned
    exact ⟨t, (atSlot_of rfl _).trans ht⟩
  all_goals exact ⟨_, rfl⟩

theorem initGo_completes (hb : s.Busy r) : ∃ t, initGo s r = .next t := by
  obtain ⟨c, ph, x⟩ := r
  obtain ⟨k, rfl⟩ := exists_slotIndex hb.slot
  cases ph
  case claim =>
    obtain ⟨t, ht⟩ := initClaim_completes (r := ⟨c, .claim, slotIndex k⟩) (hb.initMapped rfl k)
    exact ⟨t, (atSlot_of rfl _).trans ht⟩
  case unwind err =>
    obtain ⟨-, -, hslots⟩ := hb.phase
    have howned : s.owned[k] = true := (hslots k).trans (decide_eq_true (Nat.le_refl k.val))
    obtain ⟨t, ht⟩ := afterRelease_completes _ (hb.initMapped rfl k) howned
    exact ⟨t, (atSlot_of rfl _).trans ht⟩
  all_goals exact ⟨_, rfl⟩

theorem shutdownGo_completes (hb : s.Busy r) : ∃ t, shutdownGo s r = .next t := by
  obtain ⟨c, ph, x⟩ := r
  obtain ⟨k, rfl⟩ := exists_slotIndex hb.slot
  have pin_of_owned := hb.base.pins.mapped k
  cases ph
  case off =>
    obtain ⟨-, hslots⟩ := hb.phase
    have howned := hslots k
    obtain ⟨t, ht⟩ := shutdownOff_completes (r := ⟨c, .off, slotIndex k⟩) (pin_of_owned howned) howned
    exact ⟨t, (atSlot_of rfl _).trans ht⟩
  case release =>
    obtain ⟨-, hslots⟩ := hb.phase
    have howned : s.owned[k] = true := (hslots k).trans (decide_eq_true (Nat.le_refl k.val))
    obtain ⟨t, ht⟩ := afterRelease_completes _ (pin_of_owned howned) howned
    exact ⟨t, (atSlot_of rfl _).trans ht⟩
  all_goals exact ⟨_, rfl⟩

theorem withLock_completes {acquire : Result} {go : SeqRec → Result} (hacquire : ∃ t, acquire = .next t)
    (hgo : ∀ r, s.seq = some r → ∃ t, go r = .next t) : ∃ t, withLock s acquire go = .next t := by
  unfold withLock
  split
  · exact hacquire
  · next r hr =>
    split
    · exact hgo r hr
    · exact ⟨_, rfl⟩

theorem setAcquire_completes (v : Value) : ∃ t, setAcquire v s = .next t := by
  unfold setAcquire
  split
  · exact ⟨_, rfl⟩
  · split
    · exact ⟨_, rfl⟩
    · exact ⟨_, rfl⟩

theorem initAcquire_completes : ∃ t, initAcquire s = .next t := by
  cases hlife : s.life with
  | ready => exact ⟨_, initAcquire_ready hlife⟩
  | uninit => exact ⟨_, initAcquire_uninit hlife⟩

theorem shutdownAcquire_completes : ∃ t, shutdownAcquire s = .next t := by
  cases hlife : s.life with
  | uninit => exact ⟨_, shutdownAcquire_uninit hlife⟩
  | ready => exact ⟨_, shutdownAcquire_ready hlife⟩

/-- R41.2: a READY controller has a digit to read. -/
theorem execGetDigit_completes (hs : s.Inv) (v : Value) : ∃ t, exec (.getDigit v) s = .next t := by
  cases hlife : s.life with
  | uninit => exact ⟨_, exec_getDigit_uninit v hlife⟩
  | ready =>
    obtain ⟨d, hdigit⟩ := Option.ne_none_iff_exists'.mp (hs.r41.readyIffDigit.mp hlife)
    exact ⟨_, exec_getDigit_ready v hlife hdigit⟩

theorem exec_completes (hs : s.Inv) (i : Instr) : ∃ t, exec i s = .next t := by
  cases i with
  | getDigit v => exact execGetDigit_completes hs v
  | setDigit v => exact withLock_completes (setAcquire_completes v) fun r hr => setGo_completes (hs.busy hr)
  | init v => exact withLock_completes initAcquire_completes fun r hr => initGo_completes (hs.busy hr)
  | shutdown v => exact withLock_completes shutdownAcquire_completes fun r hr => shutdownGo_completes (hs.busy hr)
  | encode x => exact ⟨_, rfl⟩

/-- R79: a response on a channel has a status in use. -/
theorem frontCollect_completes (hs : s.Inv) (c : Nat) : ∃ t, frontCollect c s = .next t := by
  unfold frontCollect
  split
  · next w _ hw =>
    split
    · exact ⟨_, rfl⟩
    · next hnone => exact absurd hnone (hs.rspLegal c w hw)
  · next via w _ hw =>
    split
    · exact ⟨_, rfl⟩
    · next hnone => exact absurd hnone (hs.rspLegal c w hw)
  all_goals exact ⟨_, rfl⟩

theorem perform_completes (hs : s.Inv) (e : Event) : ∃ t, perform e s = .next t := by
  cases e
  case collect c => exact frontCollect_completes hs c
  all_goals exact ⟨_, rfl⟩

end Completes

/-- Settles O52: in a sound state every operation and every act completes (R57, R185). -/
theorem soundStatesNeverStop : Obligations.SoundStatesNeverStop := by
  intro s hs
  have hn := nextEvent_inv hs
  obtain ⟨c, w, -, -, hstep⟩ | ⟨x, -, hstep⟩ | ⟨-, hstep⟩ := step_cases s
  · rw [hstep]; exact exec_completes (hn.withActive c) _
  · rw [hstep]; exact exec_completes hn _
  · rw [hstep]; exact perform_completes hn _

/-! ### A caller served without a pause -/

section Served

variable {s t : State} {c n : Nat} {w : ReqWord}

/-- The state in which the micro-step of caller c runs when the acts after it are rest. -/
def State.serving (s : State) (c : Nat) (rest : List Event) : State :=
  { s with active := c, env := { s.env with events := rest } }

/-- An act that serves caller c runs the next micro-step of its request, and one act fewer is to come. -/
theorem step_servesNext (h : s.servesNext c (n + 1)) (hw : Slots.get c s.pending = some w) :
    ∃ rest, step s = exec (decodeRequest w) (s.serving c rest) ∧ (s.serving c rest).servesNext c n := by
  obtain ⟨rest, hevents⟩ := h
  exact ⟨_, step_serve hevents hw, rest, rfl⟩

theorem State.servesNext_mono {m : Nat} (h : s.servesNext c n) (hmn : m ≤ n) : s.servesNext c m := by
  obtain ⟨rest, hevents⟩ := h
  refine ⟨List.replicate (n - m) (.serve c) ++ rest, ?_⟩
  rw [hevents, ← List.append_assoc, List.replicate_append_replicate, Nat.add_sub_cancel' hmn]

theorem State.servesNext_congr (h : s.servesNext c n) (henv : s.env.answeredTo t.env) : t.servesNext c n := by
  obtain ⟨rest, hevents⟩ := h
  exact ⟨rest, (Env.answeredTo_events henv).trans hevents⟩

end Served

/-! ### The bound -/

section Bound

variable {s t : State} {r : SeqRec}

theorem SeqRec.stepsLeft_pos (hslot : r.k.val < 7) : 0 < r.stepsLeft := by
  obtain ⟨c, ph, x⟩ := r
  cases ph <;> simp only [stepsLeft] at hslot ⊢ <;> omega

/-- With the acquisition no operation takes more than 16 micro-steps (R65). -/
theorem SeqRec.stepsLeft_le (hslot : r.k.val < 7) : 1 + r.stepsLeft ≤ 16 := by
  obtain ⟨c, ph, x⟩ := r
  cases ph <;> simp only [stepsLeft] at hslot ⊢ <;> omega

theorem exec_micro_of_kind {w : ReqWord} {κ : SeqKind} (hk : requestKind w = some κ)
    (h : exec (decodeRequest w) s = .next t) : MicroStep κ s t := by
  unfold requestKind at hk
  cases hdec : decodeRequest w with
  | getDigit v => rw [hdec] at hk; cases hk
  | setDigit v => rw [hdec] at hk h; cases hk; exact exec_setDigit_micro h
  | init v => rw [hdec] at hk h; cases hk; exact exec_init_micro h
  | shutdown v => rw [hdec] at hk h; cases hk; exact exec_shutdown_micro h
  | encode x => rw [hdec] at hk; cases hk

/-- The lock is free and caller c is answered. -/
def State.Freed (t : State) (c : Nat) : Prop :=
  t.seq = none ∧ Slots.get c t.pending = none ∧ Slots.get c t.rsp ≠ none

theorem freed_respond (u : State) (c : Nat) (st : Status) (info : BitVec 4) (d : Digit) :
    ((u.withSeq none).respond c st info d).Freed c := by
  refine ⟨rfl, Slots.get_erase_self c u.pending, ?_⟩
  rw [State.respond_rsp, Slots.get_set_self]
  exact Option.some_ne_none _

/-- A micro-step of the lock's holder frees the lock with an answer, or leaves fewer micro-steps to come. -/
theorem MicroStep.frees_or_goesOn (h : MicroStep r.kind s t) (hq : s.seq = some r) (hc : r.caller = s.active) :
    t.Freed r.caller ∨ ∃ q : SeqRec, t.seq = some q ∧ q.caller = r.caller ∧ q.stepsLeft < r.stepsLeft := by
  have same : ∀ {r'}, s.seq = some r' → r' = r := fun h' => Option.some.inj (h'.symm.trans hq)
  cases h with
  | waits r' hq' hother => obtain rfl := same hq'; exact absurd rfl (hother hc)
  | answers st hfree => rw [hfree] at hq; cases hq
  | takesLock q u hfree => rw [hfree] at hq; cases hq
  | touches r' k u _ hq' _ _ _ _ _ ht =>
    obtain rfl := same hq'
    cases ht with
    | goesOn q hcaller hleft => exact .inr ⟨q, rfl, hcaller, hleft⟩
    | ends st info => exact .inl (freed_respond u r'.caller st info 0)
  | commits r' u hq' => obtain rfl := same hq'; exact .inl (freed_respond u r'.caller .ok 0 0)

/-- A step that serves the lock's holder in a sound state. -/
theorem step_holder {n : Nat} (hs : s.Inv) (hq : s.seq = some r) (hserve : s.servesNext r.caller (n + 1)) :
    ∃ t, step s = .next t ∧ t.Inv ∧ t.servesNext r.caller n ∧
      (t.Freed r.caller ∨ ∃ q : SeqRec, t.seq = some q ∧ q.caller = r.caller ∧ q.stepsLeft < r.stepsLeft) := by
  obtain ⟨w, hw, hkind⟩ := (hs.busy hq).requested
  obtain ⟨rest, hstep, hrest⟩ := step_servesNext hserve hw
  obtain ⟨t, ht⟩ := soundStatesNeverStop s hs
  have hm := exec_micro_of_kind hkind (hstep.symm.trans ht)
  obtain ⟨-, -, -, -, henv⟩ := hm.sameWorld
  exact ⟨t, ht, step_inv hs ht, State.servesNext_congr hrest henv, hm.frees_or_goesOn hq rfl⟩

/-- The lock is freed in time, by induction on the micro-steps left. -/
theorem freed_in_time (hs : s.Inv) (hq : s.seq = some r) (hserve : s.servesNext r.caller r.stepsLeft) :
    ∃ n t, n ≤ r.stepsLeft ∧ runSteps n s = .next t ∧ t.Freed r.caller := by
  induction hleft : r.stepsLeft using Nat.strong_induction_on generalizing s r with
  | _ left ih =>
    obtain ⟨m, rfl⟩ : ∃ m, left = m + 1 :=
      ⟨left - 1, by have := SeqRec.stepsLeft_pos (hs.seqSlot r hq); omega⟩
    rw [hleft] at hserve
    obtain ⟨u, hstep, hu, hserve', hfreed | ⟨q, hq', hcaller, hlt⟩⟩ := step_holder hs hq hserve
    · exact ⟨1, u, Nat.le_add_left 1 m, runSteps_next hstep 0, hfreed⟩
    · rw [hleft] at hlt
      rw [← hcaller] at hserve' ⊢
      obtain ⟨n, t, hn, hrun, hfreed⟩ := ih _ hlt hu hq' (State.servesNext_mono hserve' (Nat.le_of_lt_succ hlt)) rfl
      exact ⟨n + 1, t, by omega, (runSteps_next hstep n).trans hrun, hfreed⟩

end Bound

/-- Settles O42: each micro-step of the holder leaves fewer to come, until the one that frees the lock (R65, R212). -/
theorem lockReleasedInTime : Obligations.LockReleasedInTime := by
  intro s r hs hq hserve
  exact ⟨SeqRec.stepsLeft_le (hs.seqSlot r hq), freed_in_time hs hq hserve⟩

end Sys2Proof.Machine
end

section
/-! SUPPORT. The front ends' characters and results (R171, R172), the directives of a test program (R82), and the
statements about them. -/

namespace Sys2Proof.Machine

open Sys2Proof

/-! ### Characters -/

section Ascii

variable {hex : Bool} {b : Byte}

theorem asciiDigit_decimal (hlow : 0x30 ≤ b.toNat) (hhigh : b.toNat ≤ 0x39) : asciiDigit hex b = some (b - 0x30) :=
  if_pos ⟨hlow, hhigh⟩

theorem asciiDigit_letter (hhex : hex = true) (hlow : 0x41 ≤ b.toNat) (hhigh : b.toNat ≤ 0x46) :
    asciiDigit hex b = some (b - 0x41 + 10) := by
  rw [asciiDigit, if_neg (by omega), if_pos ⟨hhex, hlow, hhigh⟩]

theorem asciiDigit_other (hdecimal : ¬ (0x30 ≤ b.toNat ∧ b.toNat ≤ 0x39))
    (hletter : ¬ (hex = true ∧ 0x41 ≤ b.toNat ∧ b.toNat ≤ 0x46)) : asciiDigit hex b = none := by
  rw [asciiDigit, if_neg hdecimal, if_neg hletter]

theorem digitAscii_decimal {d : Digit} (h : d.toNat < 10) :
    digitAscii hex d = some (BitVec.ofNat 8 (0x30 + d.toNat)) := by
  rw [digitAscii, if_pos h]
  revert d
  decide

theorem digitAscii_letter {d : Digit} (h : 10 ≤ d.toNat) (hhex : hex = true) :
    digitAscii hex d = some (BitVec.ofNat 8 (0x41 + (d.toNat - 10))) := by
  rw [digitAscii, if_neg (Nat.not_lt.mpr h), if_pos hhex]
  revert d
  decide

theorem digitAscii_none {d : Digit} (h : 10 ≤ d.toNat) (hhex : hex = false) : digitAscii hex d = none := by
  rw [digitAscii, if_neg (Nat.not_lt.mpr h), hhex]
  rfl

end Ascii

/-! ### The front ends' acts -/

section FrontEnds

variable {s : State} {c : Nat} {b : Byte} {via : FrontEnd}

theorem decodeRequest_setWord (v : Value) : decodeRequest (setWord v) = .setDigit v := decode_encode (.setDigit v)

theorem decodeRequest_getWord : decodeRequest getWord = .getDigit 0 := decode_encode (.getDigit 0)

theorem frontWrite_accepted {v : Value} (h : asciiDigit s.params.hexAscii b = some v) :
    frontWrite c b s = (s.place c (setWord v)).withFront c .writing := by
  rw [frontWrite, h]

theorem frontWrite_rejected (h : asciiDigit s.params.hexAscii b = none) :
    frontWrite c b s = s.withFront c (.done .reject) := by
  rw [frontWrite, h]

/-- A write of an accepted character has its SET_DIGIT outstanding (R171). -/
theorem frontWrite_requests {v : Value} (h : asciiDigit s.params.hexAscii b = some v) :
    (frontWrite c b s).requests c (.setDigit v) ∧ Slots.get c (frontWrite c b s).front = some .writing := by
  rw [frontWrite_accepted h]
  exact ⟨⟨setWord v, Slots.get_set_self c (setWord v) s.pending, decodeRequest_setWord v⟩,
    Slots.get_set_self c FrontState.writing s.front⟩

theorem frontWrite_sameBlock : s.sameBlock (frontWrite c b s) := by
  unfold frontWrite
  split
  · exact State.sameBlock_refl s
  · exact State.sameBlock_refl s

/-- A writing front end's result is the response of its SET_DIGIT (R171). -/
theorem frontCollect_writing {st : Status} {info : BitVec 4} {d : Digit} (hfront : Slots.get c s.front = some .writing)
    (hrsp : Slots.get c s.rsp = some (rspWord st info d)) :
    frontCollect c s = .next (s.withFront c (.done (.response (rspWord st info d)))) := by
  simp only [frontCollect, hfront, hrsp, rspStatus_rspWord, Status.ofCode_code]

/-- A reading front end's result is formatted from the response of its GET_DIGIT (R172). -/
theorem frontCollect_reading {st : Status} {info : BitVec 4} {d : Digit}
    (hfront : Slots.get c s.front = some (.reading via)) (hrsp : Slots.get c s.rsp = some (rspWord st info d)) :
    frontCollect c s =
      .next (s.withFront c (.done (readResult s.params.hexAscii via st (rspWord st info d)))) := by
  simp only [frontCollect, hfront, hrsp, rspStatus_rspWord, Status.ofCode_code]

theorem readResult_error {hex : Bool} {st : Status} {w : RspWord} (h : st ≠ .ok) : readResult hex via st w = .error :=
  if_neg h

theorem readResult_bytes {hex : Bool} {info : BitVec 4} {d : Digit} (h : digitAscii hex d = some b) :
    readResult hex via .ok (rspWord .ok info d) = .bytes (frontBytes via b) := by
  rw [readResult, if_pos rfl, rspDigit_rspWord, h]

theorem readResult_noByte {hex : Bool} {info : BitVec 4} {d : Digit} (h : digitAscii hex d = none) :
    readResult hex via .ok (rspWord .ok info d) = .noByte := by
  rw [readResult, if_pos rfl, rspDigit_rspWord, h]

end FrontEnds

/-- Settles O56: the range that the byte is in decides what asciiDigit gives, and that what is issued (R171). -/
theorem writeAsciiIssuesSetDigit : Obligations.WriteAsciiIssuesSetDigit := by
  refine ⟨fun s c b rest acts h hc => ?write, fun s c st info d acts h hfront hrsp => ?collect⟩
  case write =>
    refine ⟨_, step_writeAscii_idle h hc, frontWrite_sameBlock (s := s.issuing c acts), fun hlow hhigh => ?decimal,
      fun hhex hlow hhigh => ?letter, fun hdecimal hletter => ?rejected⟩
    case decimal => exact frontWrite_requests (asciiDigit_decimal hlow hhigh)
    case letter => exact frontWrite_requests (s := s.issuing c acts) (asciiDigit_letter hhex hlow hhigh)
    case rejected =>
      rw [frontWrite_rejected (s := s.issuing c acts) (asciiDigit_other hdecimal hletter)]
      exact ⟨rfl, Slots.get_set_self c _ s.front⟩
  case collect =>
    exact ⟨_, (step_collect h).trans (frontCollect_writing (s := s.withActs acts) hfront hrsp), State.sameBlock_refl s,
      rfl, rfl, Slots.get_set_self c _ s.front⟩

/-- Settles O57: the status, the digit and HEX_ASCII decide the result, in the four cases of R172. -/
theorem readAsciiFormatsDigit : Obligations.ReadAsciiFormatsDigit := by
  refine ⟨fun b => ⟨rfl, rfl⟩, fun s c via acts h hc => ?read, fun s c via st info d acts h hfront hrsp => ?collect⟩
  case read =>
    exact ⟨_, step_readAscii_idle h hc, State.sameBlock_refl s,
      ⟨getWord, Slots.get_set_self c getWord s.pending, decodeRequest_getWord⟩, Slots.get_set_self c _ s.front⟩
  case collect =>
    have hresult : ∀ {x}, readResult s.params.hexAscii via st (rspWord st info d) = x →
        Slots.get c (Slots.set c (.done (readResult s.params.hexAscii via st (rspWord st info d))) s.front) =
          some (.done x) := by
      rintro x rfl
      exact Slots.get_set_self c _ s.front
    refine ⟨_, (step_collect h).trans (frontCollect_reading (s := s.withActs acts) hfront hrsp), State.sameBlock_refl s,
      rfl, rfl, fun hst => ?error, ?decimal, ?letter, ?noByte⟩
    case error => exact hresult (readResult_error hst)
    case decimal => rintro rfl hd; exact hresult (readResult_bytes (digitAscii_decimal hd))
    case letter => rintro rfl hd hhex; exact hresult (readResult_bytes (digitAscii_letter hd hhex))
    case noByte => rintro rfl hd hhex; exact hresult (readResult_noByte (digitAscii_none hd hhex))

/-! ### Directives -/

section Directives

variable {c : Nat}

/-- A caller that has a line left in the program takes one (R81). -/
theorem takeLine_exists {items : List Item} {t : Task} (ht : Item.task t ∈ items) (hc : t.caller = c) :
    ∃ ds u left, takeLine c items = some (ds, u, left) := by
  induction items with
  | nil => cases ht
  | cons x rest ih =>
    cases x with
    | directive d =>
      have hrest : Item.task t ∈ rest := by simpa using ht
      obtain ⟨ds, u, left, hline⟩ := ih hrest
      exact ⟨_, _, _, by rw [takeLine, hline]⟩
    | task v =>
      by_cases hv : v.caller = c
      · exact ⟨_, _, _, by rw [takeLine, if_pos hv]⟩
      · have hne : t ≠ v := fun h => hv (h ▸ hc)
        have hrest : Item.task t ∈ rest := by simpa [hne] using ht
        obtain ⟨ds, u, left, hline⟩ := ih hrest
        exact ⟨_, _, _, by rw [takeLine, if_neg hv, hline]⟩

/-- Every write directive of the program is in force once a line of it is taken, before that line or after (R82). -/
theorem takeLine_writeFail {items left : List Item} {ds : List Directive} {u : Task} {no : Nat} {ph : WritePhase}
    {k : Slot} (h : takeLine c items = some (ds, u, left)) (hd : Item.directive (.writeFail no ph k) ∈ items) :
    .writeFail no ph k ∈ ds := by
  induction items generalizing ds left with
  | nil => cases hd
  | cons x rest ih =>
    cases x with
    | directive d =>
      simp only [takeLine] at h
      split at h
      · next hline =>
        cases h
        obtain hhead | hrest := List.mem_cons.mp hd
        · cases hhead; exact List.mem_cons_self
        · exact List.mem_cons_of_mem d (ih hline hrest)
      · cases h
    | task v =>
      have hrest : Item.directive (.writeFail no ph k) ∈ rest := by simpa using hd
      simp only [takeLine] at h
      split at h
      · cases h; exact mem_writeDirectives.mpr ⟨hrest, no, ph, k, rfl⟩
      · split at h
        · next hline => cases h; exact ih hline hrest
        · cases h

variable {s : State}

/-- What a program line does, once it is taken: its act goes on, and the world outside stays as it is. -/
theorem step_actEvent {t : State} {a : Act} (hn : nextEvent s = (actEvent c a, t)) :
    ∃ u, step s = .next u ∧ u.env = t.env := by
  cases a with
  | request w => exact ⟨_, step_perform hn rfl, perform_env (e := .request c w) nofun rfl⟩
  | encode x =>
    have hstep : step s = exec (.encode x) t := by simp only [step, hn, actEvent, fetch, decodeEncoder]
    exact ⟨_, hstep.trans (exec_encode x t), rfl⟩
  | writeAscii b => exact ⟨_, step_perform hn rfl, perform_env (e := .writeAscii c b []) nofun rfl⟩
  | readAscii via => exact ⟨_, step_perform hn rfl, perform_env (e := .readAscii c via) nofun rfl⟩

/-- A caller that may issue takes its next line, and the directives that come with it are in force (R82). -/
theorem step_line {rest : List Event} {ds : List Directive} {u : Task} {left : List Item}
    (h : s.env.events = .line c :: rest) (hc : callerIdle s c = true)
    (hline : takeLine c s.env.program = some (ds, u, left)) :
    ∃ t, step s = .next t ∧ t.env.directives = s.env.directives ++ ds := by
  have hc' : callerIdle (s.withActs rest) c = true := hc
  have hline' : takeLine c (s.withActs rest).env.program = some (ds, u, left) := hline
  obtain ⟨t, hstep, henv⟩ := step_actEvent (by rw [nextEvent_fixed h, resolve, if_pos hc', hline'])
  exact ⟨t, hstep, congrArg Env.directives henv⟩

/-! The environment's answers, by the directives in force (R14, R82). -/

variable {e : Env} {ph : WritePhase} {k : Slot} {no : Nat}

/-- In a test program what no directive names answers OK. -/
theorem unnamed_scripted (h : e.scripted = true) (free : Nat → GpioAnswer) : e.unnamed free = (.ok, e) := if_pos h

theorem takeClaim_named (h : Directive.claimFail k ∈ e.directives) :
    e.takeClaim k = (.fail, e.spend (.claimFail k)) := if_pos (List.contains_iff_mem.mpr h)

theorem takeClaim_unnamed (h : Directive.claimFail k ∉ e.directives) (hs : e.scripted = true) :
    e.takeClaim k = (.ok, e) :=
  (if_neg (mt List.contains_iff_mem.mp h)).trans (unnamed_scripted hs _)

theorem takeWrite_named (hno : Slots.get c e.opNo = some no) (h : Directive.writeFail no ph k ∈ e.directives) :
    e.takeWrite c ph k = (.fail, e.spend (.writeFail no ph k)) := by
  rw [Env.takeWrite, hno]
  exact if_pos (List.contains_iff_mem.mpr h)

theorem takeWrite_unnamed (h : ∀ no, Slots.get c e.opNo = some no → Directive.writeFail no ph k ∉ e.directives)
    (hs : e.scripted = true) : e.takeWrite c ph k = (.ok, e) := by
  cases hno : Slots.get c e.opNo with
  | none => rw [Env.takeWrite, hno]; exact unnamed_scripted hs _
  | some no =>
    rw [Env.takeWrite, hno]
    exact (if_neg (mt List.contains_iff_mem.mp (h no hno))).trans (unnamed_scripted hs _)

theorem takeDraw_head {b : Level} {rest : List Directive} (h : e.directives = .draw b :: rest) :
    e.takeDraw = (b, { e with directives := rest }) := by
  rw [Env.takeDraw, h, firstDraw]
  simp only [Env.spend, h, List.erase_cons_head]

end Directives

/-- Settles O60: a write directive is among those that the line taken brings into force, and each answer looks up the
directive that names it (R82). -/
theorem directivesFixAnswers : Obligations.DirectivesFixAnswers := by
  refine ⟨fun s c rest t no ph k h hc ht htc hd => ?inForce, fun e c no ph k =>
    ⟨fun h => ?claimNamed, fun h hs => ?claimOk,
    fun hno h => ?writeNamed, fun hno h hs => ?writeOk, fun b rest h => takeDraw_head h⟩⟩
  case inForce =>
    obtain ⟨ds, u, left, hline⟩ := takeLine_exists ht htc
    obtain ⟨v, hstep, hdirectives⟩ := step_line h hc hline
    exact ⟨v, hstep, hdirectives ▸ List.mem_append_right _ (takeLine_writeFail hline hd)⟩
  case claimNamed => exact takeClaim_named h
  case claimOk => exact takeClaim_unnamed h hs
  case writeNamed => rw [takeWrite_named hno h]
  case writeOk =>
    refine takeWrite_unnamed (fun no' hno' => ?_) hs
    rw [hno] at hno'
    cases hno'
    exact h

end Sys2Proof.Machine
end

section
/-! SUPPORT. Whole operations of a caller that is served without a pause. A run is a family of predicates, one per number
of micro-steps, and each micro-step leads from one to the next (served_run). State.flight is the state in the midst of an
operation and State.landed the one it ends in: all but what they name is as in the base state, so that what an operation
leaves alone is read off. -/

namespace Sys2Proof.Machine

open Sys2Proof

/-! ### Served without a pause -/

/-- The next n acts serve caller c, and rest comes after them. -/
def Env.serves (e : Env) (c n : Nat) (rest : List Event) : Prop := e.events = List.replicate n (.serve c) ++ rest

/-- The world e when the next n acts serve caller c and rest comes after them. -/
def Env.serving (e : Env) (c n : Nat) (rest : List Event) : Env :=
  { e with events := List.replicate n (.serve c) ++ rest }

section Serves

variable {e e' : Env} {c n : Nat} {rest : List Event}

theorem Env.serving_serves (e : Env) (c n : Nat) (rest : List Event) : (e.serving c n rest).serves c n rest := rfl

theorem Env.serves_answered (h : e.serves c n rest) (he : e.answeredTo e') : e'.serves c n rest :=
  (Env.answeredTo_events he).trans h

/-- The first m of m + n acts, the others coming after them. -/
theorem Env.serves_add {m : Nat} (h : e.serves c (m + n) rest) :
    e.serves c m (List.replicate n (.serve c) ++ rest) := by
  rw [serves, ← List.append_assoc, List.replicate_append_replicate]
  exact h

end Serves

/-- n acts that serve caller c lead through a family of predicates when each of them leads from one to the next. -/
theorem served_run {P : Nat → State → Prop} {s : State} {c n : Nat} {rest : List Event} (hstart : P 0 s)
    (hserve : s.env.serves c n rest)
    (hstep : ∀ i u m, i < n → P i u → u.env.serves c (m + 1) rest →
      ∃ t, step u = .next t ∧ P (i + 1) t ∧ t.env.serves c m rest) :
    ∃ t, runSteps n s = .next t ∧ P n t ∧ t.env.serves c 0 rest := by
  have along : ∀ j, j ≤ n → ∃ t, runSteps j s = .next t ∧ P j t ∧ t.env.serves c (n - j) rest := by
    intro j
    induction j with
    | zero => exact fun _ => ⟨s, rfl, hstart, hserve⟩
    | succ j ih =>
      intro hj
      obtain ⟨u, hrun, hu, hserve'⟩ := ih (Nat.le_of_succ_le hj)
      rw [show n - j = n - (j + 1) + 1 by omega] at hserve'
      obtain ⟨t, ht, hP, hrest⟩ := hstep j u _ hj hu hserve'
      exact ⟨t, (runSteps_add 1 hrun).trans (runSteps_next ht 0), hP, hrest⟩
  obtain ⟨t, hrun, hP, hserve'⟩ := along n (Nat.le_refl n)
  rw [Nat.sub_self] at hserve'
  exact ⟨t, hrun, hP, hserve'⟩

/-! ### In flight, and after -/

/-- b with the operation r in flight, in the world e, with those slots owned and those levels driven. -/
def State.flight (b : State) (e : Env) (owned : PerSlot Bool) (out : PerSlot (Option Level)) (r : SeqRec) : State :=
  { b with env := e, owned := owned, out := out, seq := some r }

/-- b with the lock free and caller c's request answered, in the world e, with those slots owned and levels driven. -/
def State.landed (b : State) (e : Env) (owned : PerSlot Bool) (out : PerSlot (Option Level)) (c : Nat) (st : Status)
    (info : BitVec 4) : State :=
  ({ b with env := e, owned := owned, out := out, seq := none }).respond c st info 0

section Flight

variable {b : State} {e : Env} {owned : PerSlot Bool} {out : PerSlot (Option Level)} {r : SeqRec} {c n : Nat}
  {rest : List Event} {i : Instr}

/-- s in an act that serves caller c, n more of them and then rest to come. -/
def State.served (s : State) (c n : Nat) (rest : List Event) : State :=
  { s with active := c, env := s.env.serving c n rest }

/-- A step that serves caller c: the next micro-step of its operation. -/
theorem step_requested {s : State} (hreq : s.requests c i) (he : s.env.serves c (n + 1) rest) :
    step s = exec i (s.served c n rest) := by
  obtain ⟨w, hw, rfl⟩ := hreq
  exact step_serve he hw

/-- The same with an operation in flight for the active caller. -/
theorem step_flight (hreq : b.requests b.active i) (he : e.serves b.active (n + 1) rest) :
    step (b.flight e owned out r) =
      exec i (b.flight (e.serving b.active n rest) owned out r) :=
  step_requested (s := b.flight e owned out r) hreq he

theorem landed_answered (st : Status) (info : BitVec 4) :
    (b.landed e owned out c st info).answered c (rspWord st info 0) :=
  ⟨Slots.get_erase_self c b.pending, Slots.get_set_self c (rspWord st info 0) b.rsp⟩

theorem landed_sameChannelsBut (st : Status) (info : BitVec 4) :
    b.sameChannelsBut (b.landed e owned out c st info) c := fun d hd =>
  ⟨(Slots.get_erase c d b.pending).trans (if_neg hd), (Slots.get_set c d (rspWord st info 0) b.rsp).trans (if_neg hd)⟩

/-- The lock is free and caller c has no request outstanding. -/
def State.Ended (t : State) (c : Nat) : Prop := t.seq = none ∧ Slots.get c t.pending = none

/-- An operation that has ended stays so while its caller is served. -/
theorem step_ended {u : State} (hu : u.Ended c) (he : u.env.serves c (n + 1) rest) :
    ∃ t, step u = .next t ∧ t.Ended c ∧ t.env.serves c n rest :=
  ⟨_, step_serve_none he hu.2, hu, rfl⟩

theorem slot_last_or_next (k : Slot) : k = 6 ∨ ∃ k' : Slot, k'.val = k.val + 1 := by
  by_cases h : k.val = 6
  · exact .inl (Fin.ext h)
  · exact .inr ⟨⟨k.val + 1, by omega⟩, rfl⟩

theorem slot_first_or_above (k : Slot) : k = 0 ∨ ∃ k' : Slot, k.val = k'.val + 1 := by
  by_cases h : k.val = 0
  · exact .inl (Fin.ext h)
  · exact .inr ⟨⟨k.val - 1, by omega⟩, by simp only []; omega⟩

end Flight

end Sys2Proof.Machine
end

section
/-! SUPPORT. A whole SHUTDOWN (R121 to R125): seven inactive writes whatever they answer, then seven releases. -/

namespace Sys2Proof.Machine

open Sys2Proof

/-- s after SHUTDOWN's acquisition for caller c has written all but SEQ (R121). -/
def State.shutdownBase (s : State) (c : Nat) : State :=
  { s with active := c, life := .uninit, digit := none, sync := false }

/-- Where a SHUTDOWN of caller c that began in s stands after n micro-steps. -/
inductive ShutdownRun (s : State) (c : Nat) (n : Nat) : State → Prop
  | start (hn : n = 0) : ShutdownRun s c n s
  | off (k : Slot) (e : Env) (out : PerSlot (Option Level)) (hn : n = k.val + 1) :
      ShutdownRun s c n ((s.shutdownBase c).flight e s.owned out ⟨c, .off, slotIndex k⟩)
  | release (k : Slot) (e : Env) (owned : PerSlot Bool) (out : PerSlot (Option Level)) (hn : n = k.val + 8)
      (howned : ∀ i : Slot, owned[i] = decide (k.val ≤ i.val)) (hout : ∀ i : Slot, i.val < k.val → out[i] = none) :
      ShutdownRun s c n ((s.shutdownBase c).flight e owned out ⟨c, .release, slotIndex k⟩)
  | done (e : Env) (owned : PerSlot Bool) (out : PerSlot (Option Level)) (hn : n = 15)
      (howned : ∀ i : Slot, owned[i] = false) (hout : ∀ i : Slot, out[i] = none) :
      ShutdownRun s c n ((s.shutdownBase c).landed e owned out c .ok 0)

section Shutdown

variable {s u : State} {c n m : Nat} {v : Value} {rest : List Event}

/-- An inactive write goes on, whatever it answers (R122). -/
theorem shutdownOff_flight (hpins : s.pinsHeld) (e : Env) (out : PerSlot (Option Level)) (k : Slot) :
    ∃ e' out', e.answeredTo e' ∧
      shutdownOff ⟨c, .off, slotIndex k⟩ k ((s.shutdownBase c).flight e s.owned out ⟨c, .off, slotIndex k⟩) =
        .next ((s.shutdownBase c).flight e' s.owned out' (SeqRec.afterOff ⟨c, .off, slotIndex k⟩ k)) := by
  obtain ⟨howned, hpin⟩ := hpins k
  have he := e.takeWrite_answered c .off k
  rcases h : e.takeWrite c .off k with ⟨_ | _, e'⟩
  · rw [h] at he
    exact ⟨_, _, he, shutdownOff_ok (s := (s.shutdownBase c).flight e s.owned out _) hpin howned h⟩
  · rw [h] at he
    exact ⟨_, _, Env.answeredTo_trans he e'.takeDraw_answered,
      shutdownOff_fail (s := (s.shutdownBase c).flight e s.owned out _) hpin howned h⟩

/-- Slots below k + 1 are not driven once k is released beside those below it. -/
theorem out_set_none {out : PerSlot (Option Level)} {k : Slot} (h : ∀ i : Slot, i.val < k.val → out[i] = none)
    (i : Slot) (hi : i.val < k.val + 1) : (out.set k none)[i] = none := by
  rw [slot_get_set]
  split
  · rfl
  · next hne => exact h i (by have := Fin.val_ne_of_ne hne; omega)

theorem ShutdownRun.step (h : ShutdownRun s c n u) (hn : n < 15) (hlife : s.life = .ready) (hq : s.seq = none)
    (hpins : s.pinsHeld) (hreq : s.requests c (.shutdown v)) (hserve : u.env.serves c (m + 1) rest) :
    ∃ t, step u = .next t ∧ ShutdownRun s c (n + 1) t ∧ t.env.serves c m rest := by
  cases h with
  | start h0 =>
    exact ⟨_, (step_requested hreq hserve).trans ((exec_shutdown_free (s := s.served c m rest) v hq).trans
        (shutdownAcquire_ready hlife)),
      .off 0 (s.env.serving c m rest) s.out (by rw [h0]; rfl), Env.serving_serves s.env c m rest⟩
  | off k e out hk =>
    obtain ⟨e', out', he, hoff⟩ := shutdownOff_flight (c := c) hpins (e.serving c m rest) out k
    have hstep := (step_flight (b := s.shutdownBase c) hreq hserve).trans
      ((exec_off v rfl rfl rfl).trans ((atSlot_of rfl _).trans hoff))
    refine ⟨_, hstep, ?_, Env.serves_answered (e.serving_serves c m rest) he⟩
    obtain rfl | ⟨k', hk'⟩ := slot_last_or_next k
    · rw [SeqRec.afterOff_last rfl]
      exact .release 0 e' s.owned out' (by rw [hk]; rfl) (fun i => (hpins i).1.trans (by simp)) nofun
    · rw [SeqRec.afterOff_next hk']
      exact .off k' e' out' (by omega)
  | release k e owned out hk howned hout =>
    have hstep := (step_flight (b := s.shutdownBase c) (owned := owned) (out := out)
      (r := ⟨c, .release, slotIndex k⟩) hreq hserve).trans ((exec_release v rfl rfl rfl).trans (atSlot_of rfl _))
    have howned_k : owned[k] = true := (howned k).trans (decide_eq_true (Nat.le_refl k.val))
    have hset := owned_set_false_bottom howned
    have hnone := out_set_none hout
    obtain rfl | ⟨k', hk'⟩ := slot_last_or_next k
    · refine ⟨_, hstep.trans (shutdownRelease_last (hpins 6).2 howned_k rfl), ?_, rfl⟩
      exact .done _ _ _ (by rw [hk]; rfl) (fun i => (hset i).trans (decide_eq_false (by omega))) fun i => hnone i i.isLt
    · refine ⟨_, hstep.trans (shutdownRelease_next (hpins k).2 howned_k (nextSlot_eq_some hk')), ?_, rfl⟩
      refine .release k' _ _ _ (by omega) (fun i => ?_) fun i hi => hnone i (hk' ▸ hi)
      rw [hk']
      exact hset i
  | done e owned out h15 => omega

end Shutdown

/-- Settles O49: after 15 micro-steps a SHUTDOWN is over, whatever its writes answered (R124, R125). -/
theorem shutdownRunsToUninit : Obligations.ShutdownRunsToUninit := by
  intro s c v hlife hq hpins hreq ⟨rest, hserve⟩
  obtain ⟨t, hrun, hdone, -⟩ := served_run (P := ShutdownRun s c) (.start rfl) hserve
    fun _ _ _ hn h => h.step hn hlife hq hpins hreq
  refine ⟨t, hrun, ?_⟩
  cases hdone with
  | start h => omega
  | off k e out h => omega
  | release k e owned out h => omega
  | done e owned out _ howned hout =>
    exact ⟨rfl, rfl, rfl, fun i => ⟨howned i, hout i⟩, rfl, rfl, landed_answered .ok 0, rfl,
      landed_sameChannelsBut .ok 0⟩

end Sys2Proof.Machine
end

section
/-! SUPPORT. A whole INIT (R112 to R118): the claims in ascending order while they are granted, then the commit; or, from
the first one that fails, the releases in descending order. -/

namespace Sys2Proof.Machine

open Sys2Proof

/-- s after INIT's acquisition for caller c has written all but SEQ (R112). -/
def State.initBase (s : State) (c : Nat) : State := { s with active := c, pinmap := samplePins s.env.cfgPin }

/-- e fixes the answers to claims and writes that e₀ fixes (R82). -/
def Env.answersAs (e e₀ : Env) : Prop := e.scripted = e₀.scripted ∧ e.directives = e₀.directives

/-- Where an INIT of caller c that began in s, and whose claims were all granted, stands after n micro-steps. -/
inductive InitRun (s : State) (c : Nat) (n : Nat) : State → Prop
  | start (hn : n = 0) : InitRun s c n s
  | claim (k : Slot) (e : Env) (owned : PerSlot Bool) (out : PerSlot (Option Level)) (hn : n = k.val + 1)
      (he : e.answersAs s.env) (howned : ∀ i : Slot, owned[i] = decide (i.val < k.val))
      (hout : ∀ i : Slot, out[i] = if i.val < k.val then some s.inactive else s.out[i]) :
      InitRun s c n ((s.initBase c).flight e owned out ⟨c, .claim, slotIndex k⟩)
  | commit (e : Env) (owned : PerSlot Bool) (out : PerSlot (Option Level)) (hn : n = 8)
      (howned : ∀ i : Slot, owned[i] = true) (hout : ∀ i : Slot, out[i] = some s.inactive) :
      InitRun s c n ((s.initBase c).flight e owned out ⟨c, .commitInit, slotIndex 6⟩)
  | done (e : Env) (owned : PerSlot Bool) (out : PerSlot (Option Level)) (hn : n = 9)
      (howned : ∀ i : Slot, owned[i] = true) (hout : ∀ i : Slot, out[i] = some s.inactive) :
      InitRun s c n (State.landed
        { s.initBase c with digit := some s.params.defaultDigit, life := .ready, sync := false } e owned out c .ok 0)

/-- Where an INIT of caller c that began in s and whose claim of slot err failed stands, n micro-steps after that. -/
inductive UnwindRun (s : State) (c : Nat) (err : Slot) (n : Nat) : State → Prop
  | release (k : Slot) (e : Env) (owned : PerSlot Bool) (out : PerSlot (Option Level)) (hn : n + (k.val + 1) = err.val)
      (howned : ∀ i : Slot, owned[i] = decide (i.val ≤ k.val)) (hout : ∀ i : Slot, k.val < i.val → out[i] = none) :
      UnwindRun s c err n ((s.initBase c).flight e owned out ⟨c, .unwind err, slotIndex k⟩)
  | done (e : Env) (owned : PerSlot Bool) (out : PerSlot (Option Level)) (hn : n = err.val)
      (howned : ∀ i : Slot, owned[i] = false) (hout : ∀ i : Slot, out[i] = none) :
      UnwindRun s c err n ((s.initBase c).landed e owned out c .initError (slotInfo false err))

section Init

variable {s u : State} {c n m : Nat} {v : Value} {rest : List Event} {k : Slot} {e : Env} {owned : PerSlot Bool}
  {out : PerSlot (Option Level)}

/-- A level that the slots below k show, given to k too, is the level of those below k + 1. -/
theorem out_set_below {out₀ : PerSlot (Option Level)} {l : Option Level}
    (h : ∀ i : Slot, out[i] = if i.val < k.val then l else out₀[i]) (i : Slot) :
    (out.set k l)[i] = if i.val < k.val + 1 then l else out₀[i] := by
  rw [slot_get_set]
  split
  · next hki => rw [← hki, if_pos (Nat.lt_succ_self k.val)]
  · next hki =>
    rw [h i]
    have hne := Fin.val_ne_of_ne hki
    exact if_congr (by omega) rfl rfl

theorem initBase_pinmap (s : State) (c : Nat) (i : Slot) : (s.initBase c).pinmap[i] = some s.env.cfgPin[i] :=
  samplePins_get s.env.cfgPin i

/-- The pin of slot k is taken exactly when an earlier slot has the same one (R56). -/
theorem pinTaken_claiming (howned : ∀ i : Slot, owned[i] = decide (i.val < k.val)) :
    pinTaken ((s.initBase c).flight e owned out ⟨c, .claim, slotIndex k⟩) k s.env.cfgPin[k] = true ↔
      ∃ i : Slot, i < k ∧ s.env.cfgPin[i] = s.env.cfgPin[k] := by
  rw [pinTaken_iff]
  refine exists_congr fun i => ?_
  have hpin : ((s.initBase c).flight e owned out ⟨c, .claim, slotIndex k⟩).pinmap[i] = some s.env.cfgPin[i] :=
    initBase_pinmap s c i
  have hown : ((s.initBase c).flight e owned out ⟨c, .claim, slotIndex k⟩).owned[i] = decide (i.val < k.val) := howned i
  rw [hpin, hown, decide_eq_true_eq, Option.some.injEq]
  exact ⟨fun ⟨_, hlt, heq⟩ => ⟨hlt, heq⟩, fun ⟨hlt, heq⟩ => ⟨ne_of_lt hlt, hlt, heq⟩⟩

/-- A claim that neither a directive nor an earlier slot's pin fails is granted in a test program (R56, R82). -/
theorem initClaim_granted (hscripted : s.env.scripted = true) (hok : ¬ s.claimWillFail k) (he : e.answersAs s.env)
    (howned : ∀ i : Slot, owned[i] = decide (i.val < k.val)) :
    initClaim ⟨c, .claim, slotIndex k⟩ k ((s.initBase c).flight e owned out ⟨c, .claim, slotIndex k⟩) =
      .next ((s.initBase c).flight e (owned.set k true) (out.set k (some s.inactive))
        (SeqRec.afterClaim ⟨c, .claim, slotIndex k⟩ k)) := by
  obtain ⟨hdirective, hpin⟩ := not_or.mp hok
  obtain ⟨hsc, hds⟩ := he
  have hfree := Bool.not_eq_true _ ▸ mt (pinTaken_claiming (s := s) (c := c) (e := e) (out := out) howned).mp hpin
  exact initClaim_ok (s := (s.initBase c).flight e owned out ⟨c, .claim, slotIndex k⟩) (initBase_pinmap s c k) hfree
    (takeClaim_unnamed (hds ▸ hdirective) (hsc.trans hscripted))

/-- A claim that a directive or an earlier slot's pin fails uses up a directive for its slot either way (R56, R82). -/
theorem gpioClaim_refused (l : Level) (hwill : s.claimWillFail k) (he : e.answersAs s.env)
    (howned : ∀ i : Slot, owned[i] = decide (i.val < k.val)) :
    gpioClaim k l ((s.initBase c).flight e owned out ⟨c, .claim, slotIndex k⟩) =
      .ok (.fail, (s.initBase c).flight (e.spend (.claimFail k)) owned out ⟨c, .claim, slotIndex k⟩) := by
  have htaken := pinTaken_claiming (s := s) (c := c) (e := e) (out := out) howned
  have hpin := initBase_pinmap s c k
  cases hfree : pinTaken ((s.initBase c).flight e owned out ⟨c, .claim, slotIndex k⟩) k s.env.cfgPin[k] with
  | true => exact gpioClaim_forced hpin hfree
  | false =>
    obtain hdirective | hearlier := hwill
    · exact gpioClaim_fail hpin hfree (takeClaim_named (he.2 ▸ hdirective))
    · rw [htaken.mpr hearlier] at hfree; cases hfree

/-- One micro-step of an INIT, while its claims are granted. -/
theorem InitRun.step (h : InitRun s c n u) (hn : n < 9) (hlife : s.life = .uninit) (hq : s.seq = none)
    (hfree : ∀ i : Slot, s.owned[i] = false) (hreq : s.requests c (.init v)) (hscripted : s.env.scripted = true)
    (hok : ∀ k : Slot, n = k.val + 1 → ¬ s.claimWillFail k) (hserve : u.env.serves c (m + 1) rest) :
    ∃ t, step u = .next t ∧ InitRun s c (n + 1) t ∧ t.env.serves c m rest := by
  cases h with
  | start h0 =>
    exact ⟨_, (step_requested hreq hserve).trans ((exec_init_free (s := s.served c m rest) v hq).trans
        (initAcquire_uninit hlife)),
      .claim 0 (s.env.serving c m rest) s.owned s.out (by rw [h0]; rfl) ⟨rfl, rfl⟩
        (fun i => (hfree i).trans (by simp)) fun i => (if_neg (Nat.not_lt_zero i.val)).symm,
      Env.serving_serves s.env c m rest⟩
  | claim k e owned out hk he howned hout =>
    have hgranted := initClaim_granted (c := c) (e := e.serving c m rest) (out := out) hscripted (hok k hk) he howned
    have hstep := (step_flight (b := s.initBase c) hreq hserve).trans
      ((exec_claim v rfl rfl rfl).trans ((atSlot_of rfl _).trans hgranted))
    refine ⟨_, hstep, ?_, Env.serving_serves e c m rest⟩
    have howned' := owned_set_true howned
    have hout' := out_set_below hout
    obtain rfl | ⟨k', hk'⟩ := slot_last_or_next k
    · rw [SeqRec.afterClaim_last rfl]
      exact .commit _ _ _ (by rw [hk]; rfl) (fun i => (howned' i).trans (decide_eq_true i.isLt)) fun i =>
        (hout' i).trans (if_pos i.isLt)
    · rw [SeqRec.afterClaim_next hk']
      rw [← hk'] at howned' hout'
      exact .claim k' _ _ _ (by omega) he howned' hout'
  | commit e owned out h8 howned hout =>
    have hstep := (step_flight (b := s.initBase c) (owned := owned) (out := out)
      (r := ⟨c, .commitInit, slotIndex 6⟩) hreq hserve).trans ((exec_init_mine v rfl rfl).trans (initGo_commitInit rfl))
    exact ⟨_, hstep, .done (e.serving c m rest) owned out (by rw [h8]) howned hout, Env.serving_serves e c m rest⟩
  | done e owned out h9 => omega

/-- One micro-step of an INIT that unwinds (R116). -/
theorem UnwindRun.step {err : Slot} (h : UnwindRun s c err n u) (hn : n < err.val) (hreq : s.requests c (.init v))
    (hserve : u.env.serves c (m + 1) rest) :
    ∃ t, step u = .next t ∧ UnwindRun s c err (n + 1) t ∧ t.env.serves c m rest := by
  cases h with
  | release k e owned out hk howned hout =>
    have hstep := (step_flight (b := s.initBase c) (owned := owned) (out := out)
      (r := ⟨c, .unwind err, slotIndex k⟩) hreq hserve).trans ((exec_unwind v rfl rfl rfl).trans (atSlot_of rfl _))
    have howned_k : owned[k] = true := (howned k).trans (decide_eq_true (Nat.le_refl k.val))
    have hpin : (s.initBase c).pinmap[k] ≠ none := by rw [initBase_pinmap]; exact Option.some_ne_none _
    have hset := owned_set_false_top howned
    have hnone : ∀ i : Slot, k.val ≤ i.val → (out.set k none)[i] = none := by
      intro i hi
      rw [slot_get_set]
      split
      · rfl
      · next hne => exact hout i (by have := Fin.val_ne_of_ne hne; omega)
    obtain rfl | ⟨k', hk'⟩ := slot_first_or_above k
    · refine ⟨_, hstep.trans (initUnwind_last hpin howned_k rfl), ?_, Env.serving_serves e c m rest⟩
      exact .done (e.serving c m rest) _ _ hk
        (fun i => (hset i).trans (decide_eq_false (Nat.not_lt_zero i.val))) fun i => hnone i (Nat.zero_le i.val)
    · refine ⟨_, hstep.trans (initUnwind_next hpin howned_k hk'), ?_, Env.serving_serves e c m rest⟩
      refine .release k' (e.serving c m rest) _ _ (by omega) (fun i => (hset i).trans ?_) fun i hi => hnone i (by omega)
      exact decide_eq_decide.mpr (by omega)
  | done e owned out hdone => omega

/-- The micro-step of the claim that fails (R114): the slots below it, all owned, are left to unwind. -/
theorem InitRun.refused (h : InitRun s c (k.val + 1) u) (hout : ∀ i : Slot, s.out[i] = none)
    (hwill : s.claimWillFail k) (hreq : s.requests c (.init v)) (hserve : u.env.serves c (m + 1) rest) :
    ∃ t, Machine.step u = .next t ∧ UnwindRun s c k 0 t ∧ t.env.serves c m rest := by
  cases h with
  | start h0 => omega
  | commit e owned out h8 => omega
  | done e owned out h9 => omega
  | claim j e owned out hj he howned hlevels =>
    obtain rfl : k = j := Fin.ext (by omega)
    have hrefused := gpioClaim_refused (c := c) (e := e.serving c m rest) (out := out) (s.initBase c).inactive hwill he
      howned
    have hstep := (step_flight (b := s.initBase c) hreq hserve).trans
      ((exec_claim v rfl rfl rfl).trans ((atSlot_of rfl _).trans (initClaim_fail hrefused)))
    refine ⟨_, hstep, ?_⟩
    have hnone : ∀ i : Slot, k.val ≤ i.val → out[i] = none := fun i hi =>
      (hlevels i).trans ((if_neg (Nat.not_lt.mpr hi)).trans (hout i))
    obtain rfl | ⟨k', hk'⟩ := slot_first_or_above k
    · rw [initClaimFailed_first rfl]
      exact ⟨.done _ owned out rfl (fun i => (howned i).trans (decide_eq_false (Nat.not_lt_zero i.val))) fun i =>
        hnone i (Nat.zero_le i.val), rfl⟩
    · rw [initClaimFailed_above hk']
      refine ⟨.release k' _ owned out (by omega) (fun i => (howned i).trans ?_) fun i hi => hnone i (by omega), rfl⟩
      exact decide_eq_decide.mpr (by omega)

/-- In an environment that fails nothing a claim fails on a pin that is repeated alone (R56, R82). -/
theorem not_claimWillFail (hdistinct : ∀ i j : Slot, i ≠ j → s.env.cfgPin[i] ≠ s.env.cfgPin[j])
    (hclean : s.env.failsNothing = true) (k : Slot) : ¬ s.claimWillFail k := by
  rintro (hdirective | ⟨i, hlt, hpin⟩)
  · simp only [Env.failsNothing, Bool.and_eq_true, List.all_eq_true] at hclean
    exact absurd (hclean.2 _ hdirective) Bool.false_ne_true
  · exact hdistinct i k (ne_of_lt hlt) hpin

end Init

theorem Env.scripted_of_failsNothing {e : Env} (h : e.failsNothing = true) : e.scripted = true := by
  simp only [Env.failsNothing, Bool.and_eq_true] at h
  exact h.1

/-- Settles O47: every claim is granted, so that the ninth micro-step is the commit (R113, R115, R117). -/
theorem initRunsToReady : Obligations.InitRunsToReady := by
  intro s c v hlife hq hfree hreq hdistinct hclean ⟨rest, hserve⟩
  obtain ⟨t, hrun, hdone, -⟩ := served_run (P := InitRun s c) (.start rfl) hserve fun _ _ _ hn h =>
    h.step hn hlife hq hfree hreq (Env.scripted_of_failsNothing hclean) fun k _ => not_claimWillFail hdistinct hclean k
  refine ⟨t, hrun, ?_⟩
  cases hdone with
  | start h => omega
  | claim k e owned out h => omega
  | commit e owned out h => omega
  | done e owned out _ howned hout =>
    exact ⟨rfl, rfl, fun i => ⟨howned i, hout i⟩, initBase_pinmap s c, rfl, rfl, landed_answered .ok 0, rfl,
      landed_sameChannelsBut .ok 0⟩

/-- Settles O48: the claims below slot k are granted, that of k fails, and k releases follow (R114, R116). -/
theorem initFailureReleasesAll : Obligations.InitFailureReleasesAll := by
  intro s c v k hlife hq hfree hreq hscripted hwill hfirst ⟨rest, hserve⟩
  rw [show 2 + 2 * k.val = k.val + 1 + (k.val + 1) by omega] at hserve ⊢
  obtain ⟨u, hrun, hclaim, hserve'⟩ := served_run (P := InitRun s c) (.start rfl) (Env.serves_add hserve)
    fun _ _ _ hn h => h.step (by omega) hlife hq (fun i => (hfree i).1) hreq hscripted fun j hj => hfirst j (Fin.lt_def.mpr (by omega))
  obtain ⟨w, hfail, hunwind, hserve''⟩ := hclaim.refused (fun i => (hfree i).2) hwill hreq (rest := rest) hserve'
  obtain ⟨t, hreleases, hdone, -⟩ := served_run (P := UnwindRun s c k) hunwind hserve'' fun _ _ _ hn h => h.step hn hreq
  refine ⟨t, (runSteps_add (k.val + 1) hrun).trans ((runSteps_next hfail k.val).trans hreleases), ?_⟩
  cases hdone with
  | release j e owned out h => omega
  | done e owned out _ howned hout =>
    exact ⟨landed_answered .initError _, fun i => ⟨howned i, hout i⟩, hlife, rfl, rfl, rfl, initBase_pinmap s c,
      landed_sameChannelsBut .initError _⟩

end Sys2Proof.Machine
end

section
/-! SUPPORT. A whole SET_DIGIT (R141 to R147): seven clear writes, a set write for each lit slot, the commit; or the
write that fails. Where it stands is told by the number of its micro-steps (SetRun). -/

namespace Sys2Proof.Machine

open Sys2Proof

/-! ### Counting the lit slots -/

/-- How many slots below k the pattern lights. -/
def litBelow (p : Pattern) (k : Slot) : Nat := allSlots.countP fun j => decide (j < k) && segBit p j

theorem litBelow_firstLit {d : Digit} {k : Slot} (h : firstLit (rom d) = some k) : litBelow (rom d) k = 0 := by
  revert d k
  decide

theorem litBelow_nextLit {d : Digit} {k j : Slot} (hlit : segBit (rom d) k = true) (h : nextLit (rom d) k = some j) :
    litBelow (rom d) j = litBelow (rom d) k + 1 := by
  revert d k j
  decide

theorem popcount_of_nextLit_none {d : Digit} {k : Slot} (hlit : segBit (rom d) k = true)
    (h : nextLit (rom d) k = none) : popcount (rom d) = litBelow (rom d) k + 1 := by
  revert d k
  decide

theorem litBelow_lt_popcount {d : Digit} {k : Slot} (hlit : segBit (rom d) k = true) :
    litBelow (rom d) k < popcount (rom d) := by
  revert d k
  decide

theorem litBelow_injective {d : Digit} {k j : Slot} (hk : segBit (rom d) k = true) (hj : segBit (rom d) j = true)
    (h : litBelow (rom d) k = litBelow (rom d) j) : k = j := by
  revert d k j
  decide

/-! ### An environment that fails nothing -/

section FailsNothing

variable {e : Env} {c : Nat} {ph : WritePhase} {k : Slot}

theorem takeWrite_failsNothing (h : e.failsNothing = true) : e.takeWrite c ph k = (.ok, e) := by
  refine takeWrite_unnamed (fun no _ hdirective => ?_) (Env.scripted_of_failsNothing h)
  simp only [Env.failsNothing, Bool.and_eq_true, List.all_eq_true] at h
  exact absurd (h.2 _ hdirective) Bool.false_ne_true

/-- The acts that come next play no part in the answer to a write. -/
theorem takeWrite_serving (e : Env) (c n : Nat) (rest : List Event) (ph : WritePhase) (k : Slot) :
    ((e.serving c n rest).takeWrite c ph k).1 = (e.takeWrite c ph k).1 := by
  have hunnamed : ∀ free, ((e.serving c n rest).unnamed free).1 = (e.unnamed free).1 := by
    intro free
    cases hscripted : e.scripted with
    | true => rw [unnamed_scripted hscripted, unnamed_scripted (e := e.serving c n rest) hscripted]
    | false => simp only [Env.unnamed, Env.serving, hscripted, Bool.false_eq_true, if_false]
  have hopNo : (e.serving c n rest).opNo = e.opNo := rfl
  cases hno : Slots.get c e.opNo with
  | none =>
    simp only [Env.takeWrite, hopNo, hno]
    exact hunnamed _
  | some no =>
    by_cases hd : Directive.writeFail no ph k ∈ e.directives
    · rw [takeWrite_named hno hd, takeWrite_named (e := e.serving c n rest) hno hd]
    · have hcontains : e.directives.contains (.writeFail no ph k) = false := by simpa using hd
      have hdirectives : (e.serving c n rest).directives = e.directives := rfl
      simp only [Env.takeWrite, hopNo, hno, hdirectives, hcontains, Bool.false_eq_true, if_false]
      exact hunnamed _

end FailsNothing

/-! ### Where a SET_DIGIT stands -/

/-- s after SET_DIGIT's acquisition for caller c has written all but SEQ (R141). -/
def State.setBase (s : State) (c : Nat) : State := { s with active := c, sync := false }

/-- Where a SET_DIGIT of caller c and digit val that began in s, and whose writes all succeeded, stands after n
micro-steps. -/
inductive SetRun (s : State) (c : Nat) (val : Digit) (n : Nat) : State → Prop
  | start (hn : n = 0) : SetRun s c val n s
  | clearing (k : Slot) (e : Env) (out : PerSlot (Option Level)) (hn : n = k.val + 1)
      (hout : ∀ i : Slot, out[i] = if i.val < k.val then some s.inactive else s.out[i]) :
      SetRun s c val n ((s.setBase c).flight e s.owned out ⟨c, .clear (rom val) val, slotIndex k⟩)
  | lighting (k : Slot) (e : Env) (out : PerSlot (Option Level)) (hn : n = 8 + litBelow (rom val) k)
      (hlit : segBit (rom val) k = true)
      (hout : ∀ i : Slot,
        out[i] = some (if i.val < k.val then lvl s.params (segBit (rom val) i) else s.params.inactiveLevel)) :
      SetRun s c val n ((s.setBase c).flight e s.owned out ⟨c, .setOn (rom val) val, slotIndex k⟩)
  | committing (x : PinIndex) (e : Env) (out : PerSlot (Option Level)) (hn : n = 8 + popcount (rom val))
      (hout : ∀ i : Slot, out[i] = some (lvl s.params (segBit (rom val) i))) :
      SetRun s c val n ((s.setBase c).flight e s.owned out ⟨c, .commitSet (rom val) val, x⟩)
  | done (e : Env) (out : PerSlot (Option Level)) (hn : n = 9 + popcount (rom val))
      (hout : ∀ i : Slot, out[i] = some (lvl s.params (segBit (rom val) i))) :
      SetRun s c val n (State.landed { s.setBase c with digit := some val, sync := true } e s.owned out c .ok 0)

section SetDigit

variable {s u : State} {c n m : Nat} {v : Value} {val : Digit} {rest : List Event} {k : Slot} {e : Env}
  {out : PerSlot (Option Level)}

/-- The clear write of slot k is done: the next clear write, or the first set write, is to come (R142). -/
theorem SetRun.of_cleared (e : Env) (hn : n = k.val + 1)
    (hout : ∀ i : Slot, out[i] = if i.val < k.val then some s.inactive else s.out[i]) :
    SetRun s c val (n + 1) ((s.setBase c).flight e s.owned (out.set k (some s.inactive))
      (SeqRec.afterClear ⟨c, .clear (rom val) val, slotIndex k⟩ k (rom val) val)) := by
  have hout' := out_set_below hout
  obtain rfl | ⟨k', hk'⟩ := slot_last_or_next k
  · obtain ⟨j, hfirst⟩ := Option.ne_none_iff_exists'.mp (firstLit_rom val)
    obtain ⟨hlit, hbelow⟩ := firstLit_some hfirst
    rw [SeqRec.afterClear_light rfl hfirst]
    refine .lighting j e _ (by rw [litBelow_firstLit hfirst, hn]; rfl) hlit fun i => ?_
    refine (hout' i).trans ((if_pos i.isLt).trans (congrArg some ?_))
    split
    · next hi => rw [hbelow i hi, lvl_false, State.inactive_eq]
    · rfl
  · rw [SeqRec.afterClear_next hk']
    rw [← hk'] at hout'
    exact .clearing k' e _ (by omega) hout'

/-- The set write of slot k is done: the next lit slot's, or the commit, is to come (R143). -/
theorem SetRun.of_lit (e : Env) (hn : n = 8 + litBelow (rom val) k) (hlit : segBit (rom val) k = true)
    (hout : ∀ i : Slot,
      out[i] = some (if i.val < k.val then lvl s.params (segBit (rom val) i) else s.params.inactiveLevel)) :
    SetRun s c val (n + 1) ((s.setBase c).flight e s.owned (out.set k (some s.params.activeLevel))
      (SeqRec.afterSetOn ⟨c, .setOn (rom val) val, slotIndex k⟩ k (rom val) val)) := by
  cases hnext : nextLit (rom val) k with
  | some j =>
    obtain ⟨hjlit, hkj, hgap⟩ := nextLit_some hnext
    rw [SeqRec.afterSetOn_next hnext]
    exact .lighting j e _ (by rw [litBelow_nextLit hlit hnext]; omega) hjlit (out_shows_below hout hlit hkj hgap)
  | none =>
    have hall := out_shows_below hout hlit k.isLt fun i hi _ => nextLit_none hnext i hi
    rw [SeqRec.afterSetOn_last hnext]
    exact .committing _ e _ (by rw [popcount_of_nextLit_none hlit hnext]; omega) fun i =>
      (hall i).trans (by rw [if_pos i.isLt])

/-- What a micro-step leads to: the SET_DIGIT goes on, in a world that fails nothing if it did not before, or a write
that may fail has ended it. -/
def SetStep (s : State) (c : Nat) (val : Digit) (n : Nat) (clean : Bool) (t : State) : Prop :=
  (SetRun s c val (n + 1) t ∧ (clean = true → t.env.failsNothing = true)) ∨ (t.Ended c ∧ clean = false)

theorem writeFailed_ended (u : State) (r : SeqRec) (ph : Bool) (k : Slot) (e : Env) :
    (u.writeFailed r ph k e).Ended r.caller := ⟨rfl, Slots.get_erase_self r.caller u.pending⟩

/-- A micro-step that writes a pin, by the answer to the write (R55). -/
theorem setStep_of_write {ph : WritePhase} {res : Result} (he : e.serves c m rest)
    (hok : ∀ e', e.takeWrite c ph k = (.ok, e') → ∃ t, res = .next t ∧ SetRun s c val (n + 1) t ∧ t.env = e')
    (hfail : ∀ e', e.takeWrite c ph k = (.fail, e') → ∃ t, res = .next t ∧ t.Ended c ∧ t.env = e'.takeDraw.2) :
    ∃ t, res = .next t ∧ SetStep s c val n e.failsNothing t ∧ t.env.serves c m rest := by
  have hanswered := e.takeWrite_answered c ph k
  have hclean : e.failsNothing = true → e.takeWrite c ph k = (.ok, e) := takeWrite_failsNothing
  rcases h : e.takeWrite c ph k with ⟨_ | _, e'⟩
  · rw [h] at hanswered hclean
    obtain ⟨t, hres, hrun, rfl⟩ := hok e' h
    refine ⟨t, hres, .inl ⟨hrun, fun hc => ?_⟩, Env.serves_answered he hanswered⟩
    obtain ⟨-, hkept⟩ := Prod.mk.inj (hclean hc)
    rwa [hkept]
  · rw [h] at hanswered hclean
    obtain ⟨t, hres, hended, henv⟩ := hfail e' h
    refine ⟨t, hres, .inr ⟨hended, Bool.eq_false_iff.mpr fun hc => nomatch hclean hc⟩, ?_⟩
    rw [henv]
    exact Env.serves_answered he (Env.answeredTo_trans hanswered e'.takeDraw_answered)

/-- s is an idle READY controller with its pins held, and caller c asks it to show v, a digit in range. -/
structure State.AsksSet (s : State) (c : Nat) (v : Value) : Prop where
  life     : s.life = .ready
  seq      : s.seq = none
  pins     : s.pinsHeld
  requests : s.requests c (.setDigit v)
  inRange  : v.toNat ≤ 15

/-- The clear write of slot k is the next micro-step (R142). -/
theorem step_clearing (hreq : s.requests c (.setDigit v)) (hserve : e.serves c (m + 1) rest) :
    step ((s.setBase c).flight e s.owned out ⟨c, .clear (rom val) val, slotIndex k⟩) =
      setClear ⟨c, .clear (rom val) val, slotIndex k⟩ k (rom val) val
        ((s.setBase c).flight (e.serving c m rest) s.owned out ⟨c, .clear (rom val) val, slotIndex k⟩) :=
  (step_flight (b := s.setBase c) (e := e) hreq hserve).trans ((exec_clear v rfl rfl rfl).trans (atSlot_of rfl _))

/-- The set write of slot k is the next micro-step (R143). -/
theorem step_lighting (hreq : s.requests c (.setDigit v)) (hserve : e.serves c (m + 1) rest) :
    step ((s.setBase c).flight e s.owned out ⟨c, .setOn (rom val) val, slotIndex k⟩) =
      setSetOn ⟨c, .setOn (rom val) val, slotIndex k⟩ k (rom val) val
        ((s.setBase c).flight (e.serving c m rest) s.owned out ⟨c, .setOn (rom val) val, slotIndex k⟩) :=
  (step_flight (b := s.setBase c) (e := e) hreq hserve).trans ((exec_setOn v rfl rfl rfl).trans (atSlot_of rfl _))

/-- One micro-step of a SET_DIGIT. -/
theorem SetRun.step (h : SetRun s c (lowDigit v) n u) (hn : n < 9 + popcount (rom (lowDigit v))) (hs : s.AsksSet c v)
    (hserve : u.env.serves c (m + 1) rest) :
    ∃ t, step u = .next t ∧ SetStep s c (lowDigit v) n u.env.failsNothing t ∧ t.env.serves c m rest := by
  cases h with
  | start h0 =>
    exact ⟨_, (step_requested hs.requests hserve).trans ((exec_setDigit_free (s := s.served c m rest) v hs.seq).trans
        (setAcquire_inRange hs.life hs.inRange)),
      .inl ⟨.clearing 0 (s.env.serving c m rest) s.out (by rw [h0]; rfl)
        (fun i => (if_neg (Nat.not_lt_zero i.val)).symm), fun hclean => hclean⟩, Env.serving_serves s.env c m rest⟩
  | clearing k e out hk hout =>
    obtain ⟨howned, hpin⟩ := hs.pins k
    rw [step_clearing (e := e) hs.requests hserve]
    exact setStep_of_write (e := e.serving c m rest) (e.serving_serves c m rest)
      (fun e' h => ⟨_, setClear_ok (s := (s.setBase c).flight _ s.owned out _) hpin howned h,
        .of_cleared e' hk hout, rfl⟩)
      (fun e' h => ⟨_, setClear_fail (s := (s.setBase c).flight _ s.owned out _) hpin howned h,
        writeFailed_ended _ _ _ _ _, rfl⟩)
  | lighting k e out hk hlit hout =>
    obtain ⟨howned, hpin⟩ := hs.pins k
    rw [step_lighting (e := e) hs.requests hserve]
    exact setStep_of_write (e := e.serving c m rest) (e.serving_serves c m rest)
      (fun e' h => ⟨_, setSetOn_ok (s := (s.setBase c).flight _ s.owned out _) hpin howned h,
        .of_lit e' hk hlit hout, rfl⟩)
      (fun e' h => ⟨_, setSetOn_fail (s := (s.setBase c).flight _ s.owned out _) hpin howned h,
        writeFailed_ended _ _ _ _ _, rfl⟩)
  | committing x e out hlast hout =>
    have hstep := (step_flight (b := s.setBase c) (owned := s.owned) (out := out)
      (r := ⟨c, .commitSet (rom (lowDigit v)) (lowDigit v), x⟩) hs.requests hserve).trans
        ((exec_setDigit_mine v rfl rfl).trans (setGo_commitSet rfl))
    exact ⟨_, hstep, .inl ⟨.done (e.serving c m rest) out (by omega) hout, fun hclean => hclean⟩,
      Env.serving_serves e c m rest⟩
  | done e out hlast => omega

/-- A SET_DIGIT in a world that fails nothing, after n micro-steps. -/
theorem setRun_of_failsNothing (hs : s.AsksSet c v) (hclean : s.env.failsNothing = true)
    (hn : n ≤ 9 + popcount (rom (lowDigit v))) (hserve : s.env.serves c n rest) :
    ∃ t, runSteps n s = .next t ∧ SetRun s c (lowDigit v) n t ∧ t.env.serves c 0 rest := by
  have hstep : ∀ i u m, i < n → SetRun s c (lowDigit v) i u ∧ u.env.failsNothing = true →
      u.env.serves c (m + 1) rest →
      ∃ t, step u = .next t ∧ (SetRun s c (lowDigit v) (i + 1) t ∧ t.env.failsNothing = true) ∧
        t.env.serves c m rest := by
    intro i u m hi ⟨hu, hcu⟩ hserve'
    obtain ⟨t, hstep, ⟨ht, hct⟩ | ⟨-, hdirty⟩, hrest⟩ := hu.step (by omega) hs hserve'
    · exact ⟨t, hstep, ⟨ht, hct hcu⟩, hrest⟩
    · rw [hcu] at hdirty; cases hdirty
  obtain ⟨t, hrun, ⟨ht, -⟩, hrest⟩ := served_run
    (P := fun i t => SetRun s c (lowDigit v) i t ∧ t.env.failsNothing = true) ⟨.start rfl, hclean⟩ hserve hstep
  exact ⟨t, hrun, ht, hrest⟩

/-- A SET_DIGIT in any world, after n micro-steps: it goes on, or a write has ended it. -/
theorem setRun_or_ended (hs : s.AsksSet c v) (hn : n ≤ 9 + popcount (rom (lowDigit v)))
    (hserve : s.env.serves c n rest) :
    ∃ t, runSteps n s = .next t ∧ (SetRun s c (lowDigit v) n t ∨ t.Ended c) ∧ t.env.serves c 0 rest := by
  refine served_run (P := fun i t => SetRun s c (lowDigit v) i t ∨ t.Ended c) (.inl (.start rfl)) hserve
    fun i u m hi hu hserve' => ?_
  obtain hu | hended := hu
  · obtain ⟨t, hstep, ⟨ht, -⟩ | ⟨hended, -⟩, hrest⟩ := hu.step (by omega) hs hserve'
    · exact ⟨t, hstep, .inl ht, hrest⟩
    · exact ⟨t, hstep, .inr hended, hrest⟩
  · obtain ⟨t, hstep, hended', hrest⟩ := step_ended hended hserve'
    exact ⟨t, hstep, .inr hended', hrest⟩

/-- A run that has the lock still has had every write succeed. -/
theorem setRun_of_locked (hs : s.AsksSet c v) (hn : n ≤ 9 + popcount (rom (lowDigit v)))
    (hserve : s.env.serves c n rest) (hrun : runSteps n s = .next u) (hlock : u.seq ≠ none) :
    SetRun s c (lowDigit v) n u ∧ u.env.serves c 0 rest := by
  obtain ⟨t, hrun', ht | hended, hrest⟩ := setRun_or_ended hs hn hserve
  · rw [hrun] at hrun'; cases hrun'; exact ⟨ht, hrest⟩
  · rw [hrun] at hrun'; cases hrun'; exact absurd hended.1 hlock

/-- Only a SET_DIGIT that is over has taken all its micro-steps (R65). -/
theorem SetRun.finished (h : SetRun s c val (9 + popcount (rom val)) u) :
    ∃ e out, u = State.landed { s.setBase c with digit := some val, sync := true } e s.owned out c .ok 0 ∧
      ∀ i : Slot, out[i] = some (lvl s.params (segBit (rom val) i)) := by
  cases h with
  | start hn => omega
  | clearing k e out hn => omega
  | lighting k e out hn hlit => have := litBelow_lt_popcount hlit; omega
  | committing x e out hn => omega
  | done e out hn hout => exact ⟨e, out, rfl, hout⟩

/-- R67: every lit slot was lit at the acquisition, or is in the new pattern. -/
theorem SetRun.unmixed (h : SetRun s c val n u) :
    (∀ i : Slot, u.lit i → s.lit i) ∨ (∀ i : Slot, u.lit i → segBit (rom val) i = true) := by
  have inactive_ne : some s.params.inactiveLevel ≠ some s.params.activeLevel := by
    simp [Params.inactiveLevel]
  have of_lvl : ∀ b, some (lvl s.params b) = some s.params.activeLevel → b = true := by
    intro b hb
    cases b with
    | true => rfl
    | false => exact absurd hb inactive_ne
  cases h with
  | start h0 => exact .inl fun i hi => hi
  | clearing k e out hk hout =>
    refine .inl fun i hi => ?_
    have hlevel := (hout i).symm.trans hi
    split at hlevel
    · exact absurd hlevel inactive_ne
    · exact hlevel
  | lighting k e out hk hlit hout =>
    refine .inr fun i hi => ?_
    have hlevel := (hout i).symm.trans hi
    split at hlevel
    · exact of_lvl _ hlevel
    · exact absurd hlevel inactive_ne
  | committing x e out hlast hout => exact .inr fun i hi => of_lvl _ ((hout i).symm.trans hi)
  | done e out hlast hout => exact .inr fun i hi => of_lvl _ ((hout i).symm.trans hi)

/-- What a SET_DIGIT whose write of slot k fails has done beside the pins (R144). -/
theorem writeFailed_report {r : SeqRec} {ph : Bool} (hlife : s.life = .ready) (hc : r.caller = c) (e' : Env) :
    (((s.setBase c).flight e s.owned out r).writeFailed r ph k e').answered c
        (rspWord .hardwareWriteError (slotInfo ph k) 0) ∧
      (((s.setBase c).flight e s.owned out r).writeFailed r ph k e').life = .ready := by
  subst hc
  exact ⟨⟨Slots.get_erase_self _ s.pending, Slots.get_set_self _ _ s.rsp⟩, hlife⟩

/-- A slot other than the one written keeps its level. -/
theorem out_set_ne {i : Slot} (h : i ≠ k) (l : Option Level) : (out.set k l)[i] = out[i] :=
  (slot_get_set out k i l).trans (if_neg h.symm)

theorem out_set_ne_none (l : Level) : (out.set k (some l))[k] ≠ none := by
  rw [slot_get_set, if_pos rfl]
  exact Option.some_ne_none l

end SetDigit

/-- Settles O43: with every write OK the run goes through every phase, and its last micro-step is the commit
(R146, R147). -/
theorem setDigitRunsToCommit : Obligations.SetDigitRunsToCommit := by
  intro s c v hlife hq hpins hreq hv hclean ⟨rest, hserve⟩
  obtain ⟨t, hrun, ht, -⟩ := setRun_of_failsNothing ⟨hlife, hq, hpins, hreq, hv⟩ hclean (Nat.le_refl _) hserve
  obtain ⟨e, out, rfl, hout⟩ := ht.finished
  exact ⟨_, hrun, rfl, hout, rfl, rfl, landed_answered .ok 0, rfl, rfl, hlife, rfl, landed_sameChannelsBut .ok 0⟩

/-- Settles O44: SetRun says what is lit after any number of micro-steps (R67, R192). -/
theorem setDigitNeverMixes : Obligations.SetDigitNeverMixes := by
  intro s c v n hlife hq hpins hreq hv hclean hn ⟨rest, hserve⟩
  obtain ⟨t, hrun, ht, -⟩ := setRun_of_failsNothing ⟨hlife, hq, hpins, hreq, hv⟩ hclean hn hserve
  exact ⟨t, hrun, ht.unmixed⟩

/-- Settles O45: with the lock still held the run stands at the clear write of slot k, which fails (R144). -/
theorem setDigitFailsWhileClearing : Obligations.SetDigitFailsWhileClearing := by
  intro s u c v k hlife hq hpins hreq hv ⟨rest, hserve⟩ hrun hlock hfail
  obtain ⟨hu, hserve'⟩ := setRun_of_locked (n := k.val + 1) ⟨hlife, hq, hpins, hreq, hv⟩ (by omega)
    (Env.serves_add (n := 1) (rest := rest) hserve) hrun hlock
  cases hu with
  | start h => omega
  | lighting j e out h => omega
  | committing x e out h => omega
  | done e out h => omega
  | clearing j e out hj hout =>
    obtain rfl : k = j := Fin.ext (by omega)
    obtain ⟨howned, hpin⟩ := hpins k
    have hstep := step_clearing (val := lowDigit v) (k := k) (out := out) (m := 0) (rest := rest) hreq hserve'
    obtain ⟨e', hw⟩ : ∃ e', (e.serving c 0 rest).takeWrite c .clear k = (.fail, e') :=
      ⟨_, Prod.ext ((takeWrite_serving e c 0 rest .clear k).trans hfail) rfl⟩
    have hfailed := hstep.trans (setClear_fail (s := (s.setBase c).flight _ s.owned out _) hpin howned hw)
    obtain ⟨hanswer, hready⟩ := writeFailed_report (s := s) (e := e.serving c 0 rest) (out := out) (k := k)
      (ph := false) (r := ⟨c, .clear (rom (lowDigit v)) (lowDigit v), slotIndex k⟩) hlife rfl e'
    refine ⟨_, (runSteps_add 1 hrun).trans (runSteps_next hfailed 0), hanswer, rfl, rfl, rfl, rfl, hready,
      fun i hi => ?below, out_set_ne_none _, fun i hi => ?above⟩
    case below => exact (out_set_ne (ne_of_lt hi) _).trans ((hout i).trans (if_pos hi))
    case above => exact (out_set_ne (ne_of_gt hi) _).trans ((hout i).trans (if_neg (Nat.lt_asymm hi)))

/-- Settles O46: with the lock still held the run stands at the set write of slot k, which fails (R144). -/
theorem setDigitFailsWhileLighting : Obligations.SetDigitFailsWhileLighting := by
  intro s u c n v k hlife hq hpins hreq hv hlit hn ⟨rest, hserve⟩ hrun hlock hfail
  replace hlit : segBit (rom (lowDigit v)) k = true := hlit
  replace hn : n = 8 + litBelow (rom (lowDigit v)) k := hn
  have hfewer := litBelow_lt_popcount hlit
  obtain ⟨hu, hserve'⟩ := setRun_of_locked ⟨hlife, hq, hpins, hreq, hv⟩ (by omega)
    (Env.serves_add (n := 1) (rest := rest) hserve) hrun hlock
  cases hu with
  | start h => omega
  | clearing j e out h => omega
  | committing x e out h => omega
  | done e out h => omega
  | lighting j e out hj hjlit hout =>
    obtain rfl : k = j := litBelow_injective hlit hjlit (by omega)
    obtain ⟨howned, hpin⟩ := hpins k
    have hstep := step_lighting (val := lowDigit v) (k := k) (out := out) (m := 0) (rest := rest) hreq hserve'
    obtain ⟨e', hw⟩ : ∃ e', (e.serving c 0 rest).takeWrite c .setOn k = (.fail, e') :=
      ⟨_, Prod.ext ((takeWrite_serving e c 0 rest .setOn k).trans hfail) rfl⟩
    have hfailed := hstep.trans (setSetOn_fail (s := (s.setBase c).flight _ s.owned out _) hpin howned hw)
    obtain ⟨hanswer, hready⟩ := writeFailed_report (s := s) (e := e.serving c 0 rest) (out := out) (k := k)
      (ph := true) (r := ⟨c, .setOn (rom (lowDigit v)) (lowDigit v), slotIndex k⟩) hlife rfl e'
    refine ⟨_, (runSteps_add 1 hrun).trans (runSteps_next hfailed 0), hanswer, rfl, rfl, rfl, rfl, hready,
      fun i hi => ?below, out_set_ne_none _, fun i hi => ?above⟩
    case below => exact (out_set_ne (ne_of_lt hi) _).trans ((hout i).trans (congrArg some (if_pos hi)))
    case above => exact (out_set_ne (ne_of_gt hi) _).trans ((hout i).trans (congrArg some (if_neg (Nat.lt_asymm hi))))

end Sys2Proof.Machine
end

section
/-! SUPPORT. A character written through a front end and read back (R174): the two front-end calls around a whole
SET_DIGIT. -/

namespace Sys2Proof.Machine

open Sys2Proof

section RoundTrip

variable {s : State} {c : Nat} {b : Byte} {v : Value} {hex : Bool} {via : FrontEnd} {rest : List Event}

/-- An accepted character is a digit in range, whose own character it is (R171, R172). -/
theorem digitAscii_asciiDigit (h : asciiDigit hex b = some v) :
    v.toNat ≤ 15 ∧ digitAscii hex (lowDigit v) = some b := by
  unfold asciiDigit at h
  split at h
  · next hdecimal =>
    cases h
    revert hex b
    decide
  · split at h
    · next hletter =>
      cases h
      revert hex b
      decide
    · cases h

/-- Nothing is outstanding for caller c, and its last front-end call is over (R29). -/
theorem callerIdle_of_done {x : FrontResult} (hcaller : s.params.hasCaller c = true)
    (hpending : Slots.get c s.pending = none) (hfront : Slots.get c s.front = some (.done x)) :
    callerIdle s c = true := by
  simp only [callerIdle, hcaller, hpending, hfront, Option.isNone_none, FrontState.busy, Bool.not_false, Bool.and_self]

/-- A front-end write of an accepted character by a caller that may issue asks for the SET_DIGIT of its digit (R171). -/
theorem step_writeAscii_asks {bs : List Byte} (hlife : s.life = .ready) (hq : s.seq = none) (hpins : s.pinsHeld)
    (hidle : callerIdle s c = true) (haccepted : asciiDigit s.params.hexAscii b = some v)
    (h : s.env.events = .writeAscii c b bs :: rest) :
    ∃ t, step s = .next t ∧ t.AsksSet c v ∧ t.params = s.params ∧ Slots.get c t.front = some .writing ∧
      t.env.failsNothing = s.env.failsNothing ∧ t.env.events = rest := by
  have haccepted' : asciiDigit (s.issuing c rest).params.hexAscii b = some v := haccepted
  obtain ⟨hreq, -⟩ := frontWrite_requests (c := c) haccepted'
  have hwrite := step_writeAscii_idle h hidle
  rw [frontWrite_accepted haccepted'] at hreq hwrite
  exact ⟨_, hwrite, ⟨hlife, hq, hpins, hreq, (digitAscii_asciiDigit haccepted).1⟩, rfl,
    Slots.get_set_self c FrontState.writing s.front, rfl, rfl⟩

/-- Once a front-end write has its response, taking it leaves its caller free to issue (R171). -/
theorem step_collect_writing {st : Status} {info : BitVec 4} {d : Digit} (hcaller : s.params.hasCaller c = true)
    (hpending : Slots.get c s.pending = none) (hfront : Slots.get c s.front = some .writing)
    (hrsp : Slots.get c s.rsp = some (rspWord st info d)) (h : s.env.events = .collect c :: rest) :
    ∃ t, step s = .next t ∧ callerIdle t c = true ∧ t.params = s.params ∧ t.life = s.life ∧ t.digit = s.digit ∧
      t.env.events = rest :=
  ⟨_, (step_collect h).trans (frontCollect_writing (s := s.withActs rest) hfront hrsp),
    callerIdle_of_done hcaller hpending
      (Slots.get_set_self c (FrontState.done (.response (rspWord st info d))) s.front), rfl, rfl, rfl, rfl⟩

/-- A GET_DIGIT of a front-end read on a READY controller, and the taking of its response (R150, R172). -/
theorem runSteps_serve_collect {d : Digit} (hlife : s.life = .ready) (hdigit : s.digit = some d)
    (hchar : digitAscii s.params.hexAscii d = some b) (hpending : Slots.get c s.pending = some getWord)
    (hfront : Slots.get c s.front = some (.reading via)) (h : s.env.events = .serve c :: .collect c :: rest) :
    ∃ t, runSteps 2 s = .next t ∧ Slots.get c t.front = some (.done (.bytes (frontBytes via b))) := by
  have hget : step s = .next ((s.serving c (.collect c :: rest)).respond c .ok 0 d) :=
    (step_serve h hpending).trans (exec_getDigit_ready (s := s.serving c (.collect c :: rest)) 0 hlife hdigit)
  have hcollect := (step_collect (s := (s.serving c (.collect c :: rest)).respond c .ok 0 d) (rest := rest) rfl).trans
    (frontCollect_reading hfront (Slots.get_set_self c (rspWord .ok 0 d) s.rsp))
  refine ⟨_, (runSteps_next hget 1).trans (runSteps_next hcollect 0), (Slots.get_set_self c _ s.front).trans ?_⟩
  exact congrArg (fun x => some (FrontState.done x)) (readResult_bytes hchar)

/-- A whole front-end read on a READY controller (R172). -/
theorem runSteps_readAscii {d : Digit} (hlife : s.life = .ready) (hdigit : s.digit = some d)
    (hchar : digitAscii s.params.hexAscii d = some b) (hidle : callerIdle s c = true)
    (h : s.env.events = .readAscii c via :: .serve c :: .collect c :: rest) :
    ∃ t, runSteps 3 s = .next t ∧ Slots.get c t.front = some (.done (.bytes (frontBytes via b))) := by
  obtain ⟨t, hrun, hbytes⟩ := runSteps_serve_collect
    (s := frontRead c via (s.issuing c (.serve c :: .collect c :: rest))) hlife hdigit hchar
    (Slots.get_set_self c getWord s.pending) (Slots.get_set_self c (FrontState.reading via) s.front) rfl
  exact ⟨t, (runSteps_next (step_readAscii_idle h hidle) 2).trans hrun, hbytes⟩

end RoundTrip

/-- Settles O58: the write issues the SET_DIGIT of the character's digit, which commits it; the read gives the digit's
character (R174). -/
theorem asciiRoundTrip : Obligations.AsciiRoundTrip := by
  intro s c b bs via v acts hlife hq hpins hclean hidle haccepted h
  obtain ⟨u, hwrite, hasks, hparams, hwriting, hcleanu, hevents⟩ :=
    step_writeAscii_asks hlife hq hpins hidle haccepted h
  obtain ⟨t, hset, ht, hrest⟩ := setRun_of_failsNothing hasks (hcleanu.trans hclean) (Nat.le_refl _) hevents
  obtain ⟨e, out, rfl, -⟩ := ht.finished
  have hcaller : u.params.hasCaller c = true := hparams ▸ (callerIdle_spec hidle).1
  obtain ⟨w, hcollect, hidlew, hparamsw, hlifew, hdigitw, heventsw⟩ := step_collect_writing
    (s := State.landed { u.setBase c with digit := some (lowDigit v), sync := true } e u.owned out c .ok 0) hcaller
    (Slots.get_erase_self c u.pending) hwriting (Slots.get_set_self c (rspWord .ok 0 0) u.rsp) hrest
  have hchar : digitAscii w.params.hexAscii (lowDigit v) = some b := by
    rw [hparamsw.trans hparams]
    exact (digitAscii_asciiDigit haccepted).2
  obtain ⟨x, hread, hbytes⟩ := runSteps_readAscii (hlifew.trans hasks.life) hdigitw hchar hidlew heventsw
  refine ⟨x, ?_, hbytes⟩
  rw [show 14 + popcount (rom (v.extractLsb' 0 4)) = 9 + popcount (rom (lowDigit v)) + 4 + 1 by rw [lowDigit]; omega]
  exact (runSteps_next hwrite _).trans ((runSteps_add 4 hset).trans ((runSteps_next hcollect 3).trans hread))

end Sys2Proof.Machine
end
